-- ==== Sys2Proof/Word.lean ====
section
/-!
DEFINITION. The two widths of the block: a byte of the port or of a checksum register, and a data word.
00_scope.md R7: bit vectors read as unsigned integers, bit 0 the least significant.
-/

namespace Sys2Proof

/-- A byte, 8 bits (R7). -/
abbrev Byte := BitVec 8

/-- A data word, 16 bits unsigned (R12). -/
abbrev Word := BitVec 16

/-- A command word, 11 bits `{op[2:0], data[7:0]}` (30_encoding.md R45). -/
abbrev CommandWord := BitVec 11

end Sys2Proof
end

