-- ==== Sys2Proof/Syntax.lean ====
section
/-!
DEFINITION. The operations of the command port, one constructor per row of spec/opcode_table.json (30_encoding.md
R48); the sample of the input ports that one clock edge takes (10_state.md R11); the lines and the two
pseudo-instructions of the assembler (R55, R56).
-/

namespace Sys2Proof

/-- An operation (R48). Format D operations carry their one operand, `data` as it stands (R47); format N operations
carry nothing, because their `data` bits are ignored (R49; log entry 9). -/
inductive Instr where
  /-- NOP, 42_misc_ops.md R86 -/
  | nop
  /-- CRCINIT, 40_crc8.md R66 -/
  | crcinit
  /-- CRCBYTE d, 40_crc8.md R67 -/
  | crcbyte (d : Byte)
  /-- CRCCHK e, 40_crc8.md R68 -/
  | crcchk (e : Byte)
  /-- FSTART, 41_frame.md R79 -/
  | fstart
  /-- FBYTE d, 41_frame.md R80 -/
  | fbyte (d : Byte)
  /-- FEND, 41_frame.md R81 -/
  | fend
  /-- RSV7, the reserved operation code, 42_misc_ops.md R87 -/
  | rsv7
  deriving DecidableEq, Repr

/-- What the block samples at one rising edge of `clk` (R11): the reset pin and the two fields of the command word. -/
structure Pins where
  rst  : Bool
  op   : BitVec 3
  data : Byte
  deriving DecidableEq, Repr

/-- A line of the assembler that is not blank (R55): `RESET`, one step with `rst` = 1, which is not an operation, or
one operation. -/
inductive Line where
  | reset
  | op (i : Instr)
  deriving DecidableEq, Repr

/-- The two pseudo-instructions (R56). -/
inductive Pseudo where
  /-- `VERIFY b1, ..., bn : e`, n at least 1 -/
  | verify (bytes : List Byte) (e : Byte)
  /-- `FRAME b0, ..., b(n-1)`, n at least 0 -/
  | frame (bytes : List Byte)
  deriving DecidableEq, Repr

end Sys2Proof
end

