-- ==== Sys2Proof/WellFormed.lean ====
section
/-!
DEFINITION. Well-formedness. An operation of `Instr` is well-formed whatever its operand: every value of `data` is
legal at every operation (R67, R68, R80), and the operand's width is in its type. What can be ill-formed is a
number that is no command word (R45), a command word that is not in the canonical form (R49), and a VERIFY of no
bytes (R56).
-/

namespace Sys2Proof

/-- Every operation is well-formed: the operand of format D is any unsigned 8-bit value (R47), format N has none. -/
def Instr.wf : Instr → Bool
  | .nop => true
  | .crcinit => true
  | .crcbyte _ => true
  | .crcchk _ => true
  | .fstart => true
  | .fbyte _ => true
  | .fend => true
  | .rsv7 => true

/-- A number is a command word when it is one of 0x000 to 0x7FF (R45). -/
def wordWf (w : Nat) : Bool := decide (w < 0x800)

/-- The canonical form of a command word (R49): in the five format N rows of R48 the `data` bits are 0x00. -/
def wordCanonical (w : CommandWord) : Bool :=
  match w.getLsbD 10, w.getLsbD 9, w.getLsbD 8 with
  | false, true, false => true
  | false, true, true => true
  | true, false, true => true
  | _, _, _ => w.extractLsb' 0 8 == 0#8

/-- `VERIFY` needs at least one byte, `FRAME` takes any number (R56). -/
def Pseudo.wf : Pseudo → Bool
  | .verify bytes _ => !bytes.isEmpty
  | .frame _ => true

end Sys2Proof
end

