-- ==== Sys2Proof/Decode.lean ====
section
/-!
DEFINITION. The decoder and the encoder of the command word (30_encoding.md R45 to R51). The decoder reads the
three operation code bits as the `encoding` column of the opcode table writes them; `opcodeRows` is R48's map of
match and mask over the same words, kept as data so that the two readings can be compared.
-/

namespace Sys2Proof

/-- Bits [7:0] of a command word (R45). -/
def dataOf (w : CommandWord) : Byte := w.extractLsb' 0 8

/-- Bits [10:8] of a command word (R45). -/
def opOf (w : CommandWord) : BitVec 3 := w.extractLsb' 8 3

/-- The operation of a command word: total, each of the 2048 words selects one (R48). -/
def decode (w : CommandWord) : Instr :=
  match w.getLsbD 10, w.getLsbD 9, w.getLsbD 8 with
  | false, false, false => .nop
  | false, false, true  => .crcinit
  | false, true,  false => .crcbyte (dataOf w)
  | false, true,  true  => .crcchk (dataOf w)
  | true,  false, false => .fstart
  | true,  false, true  => .fbyte (dataOf w)
  | true,  true,  false => .fend
  | true,  true,  true  => .rsv7

/-- Why a number is not decoded. -/
inductive DecodeReject where
  /-- The number is above 0x7FF: it has a bit outside the 11 bits of a command word (R45). -/
  | notACommandWord
  deriving DecidableEq, Repr

/-- Decoding a number (R45, "Written as a number"), rejecting by name what is no command word. -/
def decodeNumber (w : Nat) : Except DecodeReject Instr :=
  if wordWf w then .ok (decode (BitVec.ofNat 11 w)) else .error .notACommandWord

/-- The instruction read from a word of the opcode table, numbered as the table numbers it. The table's words have 11
bits, so `nbits` (whole bytes) tells nothing more than `w` does (log entry 8). -/
def decodeTableWord (_nbits w : Nat) : Option Instr :=
  match decodeNumber w with
  | .ok i => some i
  | .error _ => none

/-- The operation code of R48. -/
def Instr.opcode : Instr → BitVec 3
  | .nop => 0
  | .crcinit => 1
  | .crcbyte _ => 2
  | .crcchk _ => 3
  | .fstart => 4
  | .fbyte _ => 5
  | .fend => 6
  | .rsv7 => 7

/-- The `data` field of the canonical word: the operand of format D, 0x00 in format N (R49). -/
def Instr.operand : Instr → Byte
  | .nop => 0x00
  | .crcinit => 0x00
  | .crcbyte d => d
  | .crcchk e => e
  | .fstart => 0x00
  | .fbyte d => d
  | .fend => 0x00
  | .rsv7 => 0x00

/-- The canonical command word of an operation, `{op, data}` (R45, R49). -/
def encode (i : Instr) : CommandWord := i.opcode ++ i.operand

/-- One row of R48's map: a word `w` selects the row when `(w & mask) == match`. -/
structure OpcodeRow where
  pattern : CommandWord
  mask    : CommandWord
  /-- an operation of the row, with operand 0x00 in format D -/
  sample  : Instr
  deriving DecidableEq, Repr

/-- R48's map, row by row. -/
def opcodeRows : List OpcodeRow :=
  [ ⟨0x000, 0x700, .nop⟩,
    ⟨0x100, 0x700, .crcinit⟩,
    ⟨0x200, 0x700, .crcbyte 0x00⟩,
    ⟨0x300, 0x700, .crcchk 0x00⟩,
    ⟨0x400, 0x700, .fstart⟩,
    ⟨0x500, 0x700, .fbyte 0x00⟩,
    ⟨0x600, 0x700, .fend⟩,
    ⟨0x700, 0x700, .rsv7⟩ ]

/-- R48's selection rule. -/
def OpcodeRow.selects (r : OpcodeRow) (w : CommandWord) : Bool := (w &&& r.mask) == r.pattern

/-- The command word on the pins, `{op, data}` (R45). -/
def Pins.word (p : Pins) : CommandWord := p.op ++ p.data

/-- The operation on the pins. -/
def Pins.instr (p : Pins) : Instr := decode p.word

/-- Driving an operation: its canonical word with `rst` = 0. -/
def Instr.pins (i : Instr) : Pins := ⟨false, i.opcode, i.operand⟩

/-- Driving an assembler line (R55): `RESET` is one step with `rst` = 1, whose command word is ignored and is written
as the canonical NOP here. -/
def Line.pins : Line → Pins
  | .reset => ⟨true, 0, 0x00⟩
  | .op i => i.pins

end Sys2Proof
end

