-- ==== Sys2Proof/Config.lean ====
section
/-!
DEFINITION. The constants of 00_scope.md R5 and R6, none of them configurable, and the free values: what the
host drives on the three input ports when the model holds no decision of the host's (10_state.md R10: "The host
chooses the values of `rst`, `op` and `data` for every step; the block constrains that choice in no way").
-/

namespace Sys2Proof.Config

/-- POLY, the CRC8 polynomial (R5). -/
def poly : Byte := 0x31

/-- INIT, the CRC8 initial value (R5). -/
def crcInit : Byte := 0xFF

/-- FRAME_LEN, bytes in a read-measurement response (R5). -/
def frameLen : Nat := 9

/-- Groups per response, and bytes per group (R5). -/
def groups : Nat := 3

/-- Bytes per group: [MSB, LSB, CRC8] (R5). -/
def groupLen : Nat := 3

/-- Where the frame byte counter saturates (R6, 10_state.md R18). -/
def cntMax : Nat := 10

/-- What a word output carries while `valid_o` is 0 (R6, 10_state.md R23). -/
def gatedWord : Word := 0x0000

/-- FREE VALUE (log entry 2, DESIGN CHOICE, safe): `rst` at edge number `n` where the model holds no decision of the host's. -/
opaque hostRst : Nat → Bool

/-- FREE VALUE (log entry 2, DESIGN CHOICE, safe): `op` at edge number `n` where the model holds no decision of the host's. -/
opaque hostOp : Nat → BitVec 3

/-- FREE VALUE (log entry 2, DESIGN CHOICE, safe): `data` at edge number `n` where the model holds no decision of the host's. -/
opaque hostData : Nat → Byte

end Sys2Proof.Config
end

