-- ==== Sys2Proof/Machine/Checksum.lean ====
section
/-!
DEFINITION. The checksum, 40_crc8.md R60 to R63: the bit step, the byte step, the checksum of a non-empty sequence
and its verification. The document gives no value on the empty sequence and neither does the model (U1; log entry
7): `crc8` takes the first byte apart from the rest.
-/

namespace Sys2Proof.Machine

/-- `shl8(v) = {v[6:0], 1'b0}` (00_scope.md R8). -/
def shl8 (v : Byte) : Byte := v.extractLsb' 0 7 ++ 0#1

/-- The bit step (R60): bit 7 is tested before the shift, which drops it. -/
def crcBit (c : Byte) : Byte := if c.getLsbD 7 then shl8 c ^^^ Config.poly else shl8 c

/-- `n` bit steps in a row. -/
def crcBits : Nat → Byte → Byte
  | 0, x => x
  | n + 1, x => crcBits n (crcBit x)

/-- `T`, eight bit steps (R61). -/
def crcT (x : Byte) : Byte := crcBits 8 x

/-- The byte step (R61): the whole byte is XORed in, then eight bit steps follow. -/
def crcByte (c b : Byte) : Byte := crcT (c ^^^ b)

/-- The register after the bytes of a list, from the register value `c` (the recurrence of R62). -/
def crcRun (c : Byte) : List Byte → Byte
  | [] => c
  | b :: bs => crcRun (crcByte c b) bs

/-- `crc8([b, rest...])`, the document's `compute_crc8` on a non-empty sequence (R62). -/
def crc8 (b : Byte) (rest : List Byte) : Byte := crcRun (crcByte Config.crcInit b) rest

/-- `verify_crc8([b, rest...], e)` (R63). -/
def verifyCrc8 (b : Byte) (rest : List Byte) (e : Byte) : Bool := crc8 b rest == e

end Sys2Proof.Machine
end

