-- ==== Sys2Proof/Machine/State.lean ====
section
/-!
DEFINITION. The state of the block, exactly the table of 10_state.md R27, with two fields of the model's own for
the input ports (log entries 1 and 2); the reset values; the reasons a step could stop.
-/

namespace Sys2Proof.Machine

/-- One value for each of the three groups of a frame (R12, R19): the index `g` of `W[g]` and `OK[g]`. -/
structure PerGroup (α : Type) where
  g0 : α
  g1 : α
  g2 : α
  deriving DecidableEq, Repr

/-- ST, the frame state (R17). The code 3 is never reached (R28) and is unrepresentable (U7; log entry 5). -/
inductive FrameState where
  /-- 0: no frame started since reset -/
  | idle
  /-- 1: a frame is open -/
  | recv
  /-- 2: the frame was ended by FEND and its result stands -/
  | done
  deriving DecidableEq, Repr

/-- ERR, the error the last ended frame raised (R20). The code 3 is never written and is unrepresentable (U7, U8; log
entry 5). -/
inductive FrameErr where
  /-- 0 -/
  | none
  /-- 1 -/
  | checksumMismatch
  /-- 2 -/
  | malformedResponse
  deriving DecidableEq, Repr

/-- The machine. The first ten fields are the block's registers, R27; the last two are the model's own. -/
structure State where
  /-- CRC, 8 bits (R14) -/
  crc : Byte
  /-- MATCH, 1 bit (R15) -/
  matchFlag : Bool
  /-- FCRC, 8 bits (R16) -/
  fcrc : Byte
  /-- ST, 2 bits, values 0 to 2 (R17) -/
  st : FrameState
  /-- CNT, 4 bits, values 0 to 10 (R18) -/
  cnt : Fin 11
  /-- W[0..2], 16 bits each (R12) -/
  w : PerGroup Word
  /-- OK[0..2], 1 bit each (R19) -/
  ok : PerGroup Bool
  /-- ERR, 2 bits, values 0 to 2 (R20) -/
  err : FrameErr
  /-- EGRP, 2 bits, values 0 to 2 (R21) -/
  egrp : Fin 3
  /-- FAULT, 2 bits: bit 0 ILL, bit 1 SEQ (R22) -/
  fault : BitVec 2
  /-- The model's own (log entry 1): what the host has decided to drive at the coming edges, oldest first. -/
  driven : List Pins
  /-- The model's own (log entry 2): the number of edges stepped, for drawing free values of the input pins. -/
  edges : Nat
  deriving DecidableEq, Repr

/-- The reset values of R27. The model's own fields start with nothing decided by the host and no edge stepped (DESIGN
CHOICE, log entries 1 and 2). -/
def State.reset : State where
  crc := 0xFF
  matchFlag := false
  fcrc := 0xFF
  st := .idle
  cnt := 0
  w := ⟨0x0000, 0x0000, 0x0000⟩
  ok := ⟨false, false, false⟩
  err := .none
  egrp := 0
  fault := 0
  driven := []
  edges := 0

/-- Reasons the machine stops with a fault. It has no member: "There is no stuck state, no hang and no operation that
waits" (70_reset_and_hazards.md R121). The block's own faults are recorded in ERR, EGRP and FAULT and stop nothing
(60_exceptions.md R108); log entry 13. -/
inductive Fault
  deriving DecidableEq, Repr

/-- Reasons the model gives an instruction no meaning. -/
inductive Refusal where
  /-- Raised by an arm of `exec` whose instruction has no meaning yet; every instruction has one, so no arm raises it. Safe. -/
  | notModelled (mnemonic : String)
  deriving DecidableEq, Repr

end Sys2Proof.Machine
end

