-- ==== Sys2Proof/Machine/Operands.lean ====
section
/-!
DEFINITION. Where an operand goes: access to `X[g]`, the halves of a word (00_scope.md R9), the position of a byte
within the frame that CNT names (20_memory.md R30, R34), and the counter's next value (10_state.md R18).
-/

namespace Sys2Proof.Machine

/-- `X[g]`. -/
def PerGroup.get {α : Type} (t : PerGroup α) (g : Fin 3) : α :=
  match g with
  | 0 => t.g0
  | 1 => t.g1
  | 2 => t.g2

/-- `X[g] <- v`, the other two groups kept. -/
def PerGroup.set {α : Type} (t : PerGroup α) (g : Fin 3) (v : α) : PerGroup α :=
  match g with
  | 0 => { t with g0 := v }
  | 1 => { t with g1 := v }
  | 2 => { t with g2 := v }

/-- `W[g].hi`, bits 15:8 (R9). -/
def hi (w : Word) : Byte := w.extractLsb' 8 8

/-- `W[g].lo`, bits 7:0 (R9). -/
def lo (w : Word) : Byte := w.extractLsb' 0 8

/-- The word `{msb, lsb}`, the document's `(MSB << 8) | LSB` (41_frame.md R78). -/
def mkWord (msb lsb : Byte) : Word := msb ++ lsb

/-- `W[g].hi <- b`. -/
def setHi (w : Word) (b : Byte) : Word := mkWord b (lo w)

/-- `W[g].lo <- b`. -/
def setLo (w : Word) (b : Byte) : Word := mkWord (hi w) b

/-- The three bytes of a group, in order (30_encoding.md R52). -/
inductive GroupByte where
  | msb
  | lsb
  | crc
  deriving DecidableEq, Repr

/-- The byte of the group at position `k` = `CNT mod 3` (R34). -/
def roleOf (k : Nat) : GroupByte :=
  match k with
  | 0 => .msb
  | 1 => .lsb
  | _ => .crc

/-- A position of the frame: group and byte of the group. -/
structure Slot where
  group : Fin 3
  role  : GroupByte
  deriving DecidableEq, Repr

/-- The position of the byte at offset `CNT`: group `CNT div 3`, byte `CNT mod 3` (R34, R80); none from offset 9 on. -/
def slotOf (c : Fin 11) : Option Slot :=
  if h : c.val < 9 then some ⟨⟨c.val / 3, by omega⟩, roleOf (c.val % 3)⟩ else none

/-- `min(CNT + 1, 10)` (R18). -/
def nextCnt (c : Fin 11) : Fin 11 := ⟨min (c.val + 1) 10, by omega⟩

end Sys2Proof.Machine
end

