-- ==== Sys2Proof/Machine/Flags.lean ====
section
/-!
DEFINITION. The flags (10_state.md R24): the FAULT bits and how one is set (R22), the group FEND reports (R21), the
numeric codes of ST, ERR and EGRP (R17, R20, R54), and the gate `valid_o` (R23).
-/

namespace Sys2Proof.Machine

/-- FAULT.ILL, bit 0 (R22). -/
def State.ill (s : State) : Bool := s.fault.getLsbD 0

/-- FAULT.SEQ, bit 1 (R22). -/
def State.seq (s : State) : Bool := s.fault.getLsbD 1

/-- FAULT with bit 0 set and bit 1 kept, `FAULT[0] <- 1` (60_exceptions.md R104). -/
def withIll (f : BitVec 2) : BitVec 2 := f ||| 0b01#2

/-- FAULT with bit 1 set and bit 0 kept, `FAULT[1] <- 1` (R104). -/
def withSeq (f : BitVec 2) : BitVec 2 := f ||| 0b10#2

/-- The lowest group whose OK bit is 0, if any: the order in which FEND tests them (41_frame.md R81). -/
def lowestFailing (ok : PerGroup Bool) : Option (Fin 3) :=
  if ok.get 0 = false then some 0
  else if ok.get 1 = false then some 1
  else if ok.get 2 = false then some 2
  else none

/-- The 2-bit code of ST (R17). -/
def FrameState.code : FrameState → BitVec 2
  | .idle => 0
  | .recv => 1
  | .done => 2

/-- The 2-bit code of ERR (R20). -/
def FrameErr.code : FrameErr → BitVec 2
  | .none => 0
  | .checksumMismatch => 1
  | .malformedResponse => 2

/-- The 2-bit code of a group index (R54). -/
def groupCode (g : Fin 3) : BitVec 2 := BitVec.ofNat 2 g.val

/-- `valid_o = (ST == 2) & (ERR == 0)` (R23). -/
def State.valid (s : State) : Bool := decide (s.st = .done) && decide (s.err = .none)

end Sys2Proof.Machine
end

