-- ==== Sys2Proof/Machine/Ops.lean ====
section
/-!
DEFINITION. The named operations on the state that the meanings share: one update per register, raising a condition
(60_exceptions.md R104) and clearing a frame error (R109), the reset step (70_reset_and_hazards.md R120), sampling
the input ports (10_state.md R11), opening a frame (41_frame.md R79) and taking one byte of it (R80).
-/

namespace Sys2Proof.Machine

/-- `CRC <- v`. -/
def State.setCrc (s : State) (v : Byte) : State := { s with crc := v }

/-- `MATCH <- v`. -/
def State.setMatch (s : State) (v : Bool) : State := { s with matchFlag := v }

/-- `FCRC <- v`. -/
def State.setFcrc (s : State) (v : Byte) : State := { s with fcrc := v }

/-- `ST <- v`. -/
def State.setSt (s : State) (v : FrameState) : State := { s with st := v }

/-- `CNT <- v`. -/
def State.setCnt (s : State) (v : Fin 11) : State := { s with cnt := v }

/-- `W[0..2] <- v`. -/
def State.setW (s : State) (v : PerGroup Word) : State := { s with w := v }

/-- `OK[0..2] <- v`. -/
def State.setOk (s : State) (v : PerGroup Bool) : State := { s with ok := v }

/-- `ERR <- e; EGRP <- g`. -/
def State.setErr (s : State) (e : FrameErr) (g : Fin 3) : State := { s with err := e, egrp := g }

/-- `FAULT <- v`. -/
def State.setFault (s : State) (v : BitVec 2) : State := { s with fault := v }

/-- The four conditions (60_exceptions.md R100). -/
inductive Condition where
  /-- a frame error, raised by FEND -/
  | checksumMismatch (g : Fin 3)
  /-- a frame error, raised by FEND -/
  | malformedResponse
  /-- a port fault, raised by RSV7 -/
  | illegalOp
  /-- a port fault, raised by FBYTE and FEND outside RECV -/
  | sequenceFault
  deriving DecidableEq, Repr

/-- `raise`, R104: the condition is recorded, no control is transferred, nothing is saved (R107). -/
def State.raise (s : State) : Condition → State
  | .checksumMismatch g => s.setErr .checksumMismatch g
  | .malformedResponse => s.setErr .malformedResponse 0
  | .illegalOp => s.setFault (withIll s.fault)
  | .sequenceFault => s.setFault (withSeq s.fault)

/-- Clearing a frame error, `ERR <- 0; EGRP <- 0`: what stands in place of a return from an exception (R109). -/
def State.clearFrameError (s : State) : State := s.setErr .none 0

/-- The reset step (R120): every register takes its reset value of R27; the host's own decisions and the edge count are
no registers and stay (log entry 1). -/
def State.resetRegs (s : State) : State := { State.reset with driven := s.driven, edges := s.edges }

/-- The input ports at the coming edge (R11): the host's decision where the model holds one, else a free value (log
entry 2). -/
def State.sample (s : State) : Pins :=
  match s.driven with
  | p :: _ => p
  | [] => ⟨Config.hostRst s.edges, Config.hostOp s.edges, Config.hostData s.edges⟩

/-- The edge has passed: its pin sample is used up (20_memory.md R39, the block keeps no copy of it). -/
def State.advance (s : State) : State := { s with driven := s.driven.tail, edges := s.edges + 1 }

/-- `s` with the sample `p` driven at the coming edge, in place of what was to be driven there. -/
def State.drive (s : State) (p : Pins) : State := { s with driven := p :: s.driven.tail }

/-- Opening a frame (R79): every frame register is written, so nothing of an earlier frame is left. -/
def State.openFrame (s : State) : State :=
  { s with
    st := .recv
    cnt := 0
    fcrc := Config.crcInit
    w := ⟨0x0000, 0x0000, 0x0000⟩
    ok := ⟨false, false, false⟩
    err := .none
    egrp := 0 }

/-- Taking the byte `d` at the position `p` of the frame (R80): the MSB starts the group's checksum afresh from INIT,
the LSB continues it, the CRC byte is compared with it and is not stored. -/
def State.takeByte (s : State) (p : Slot) (d : Byte) : State :=
  match p.role with
  | .msb => (s.setW (s.w.set p.group (setHi (s.w.get p.group) d))).setFcrc (crcByte Config.crcInit d)
  | .lsb => (s.setW (s.w.set p.group (setLo (s.w.get p.group) d))).setFcrc (crcByte s.fcrc d)
  | .crc => s.setOk (s.ok.set p.group (s.fcrc == d))

/-- The verdict on a whole frame (R81): the length is tested before any checksum (R106), then the groups in order. -/
def State.judgeFrame (s : State) : State :=
  if s.cnt = 9 then
    match lowestFailing s.ok with
    | some g => s.raise (.checksumMismatch g)
    | none => s.clearFrameError
  else s.raise .malformedResponse

end Sys2Proof.Machine
end

