-- ==== Sys2Proof/Machine/Frame.lean ====
section
/-!
DEFINITION. The meanings of the frame operations FSTART, FBYTE, FEND (41_frame.md).
-/

namespace Sys2Proof.Machine

/-- FSTART opens a frame, in every state, and forgets everything about the last one (R79). -/
def execFstart (s : State) : Host.Outcome State Fault Refusal := .next s.openFrame

/-- FBYTE d (R80): outside RECV a SequenceFault and nothing else; from the tenth byte on only CNT changes; otherwise
the byte is taken at the position CNT names, and CNT advances. -/
def execFbyte (d : Byte) (s : State) : Host.Outcome State Fault Refusal :=
  if s.st = .recv then
    match slotOf s.cnt with
    | none => .next (s.setCnt 10)
    | some p => .next ((s.takeByte p d).setCnt (nextCnt s.cnt))
  else .next (s.raise .sequenceFault)

/-- FEND (R81): outside RECV a SequenceFault and nothing else; in RECV the frame is closed and judged. -/
def execFend (s : State) : Host.Outcome State Fault Refusal :=
  if s.st = .recv then .next (s.setSt .done).judgeFrame
  else .next (s.raise .sequenceFault)

end Sys2Proof.Machine
end

