-- ==== Sys2Proof/Machine/Generic.lean ====
section
/-!
DEFINITION. The meanings of the generic checksum operations CRCINIT, CRCBYTE, CRCCHK (40_crc8.md).
-/

namespace Sys2Proof.Machine

/-- CRCINIT: `CRC <- 8'hFF; MATCH <- 0` (R66). -/
def execCrcinit (s : State) : Host.Outcome State Fault Refusal :=
  .next ((s.setCrc Config.crcInit).setMatch false)

/-- CRCBYTE d: `CRC <- crc8_byte(CRC, d); MATCH <- 0` (R67). -/
def execCrcbyte (d : Byte) (s : State) : Host.Outcome State Fault Refusal :=
  .next ((s.setCrc (crcByte s.crc d)).setMatch false)

/-- CRCCHK e: `MATCH <- (CRC == e)` (R68). -/
def execCrcchk (e : Byte) (s : State) : Host.Outcome State Fault Refusal :=
  .next (s.setMatch (s.crc == e))

end Sys2Proof.Machine
end

