-- ==== Sys2Proof/Machine/Misc.lean ====
section
/-!
DEFINITION. The meanings of NOP and RSV7 (42_misc_ops.md).
-/

namespace Sys2Proof.Machine

/-- NOP writes no state element (R86). -/
def execNop (s : State) : Host.Outcome State Fault Refusal := .next s

/-- RSV7 raises IllegalOp, always, and writes nothing else (R87). -/
def execRsv7 (s : State) : Host.Outcome State Fault Refusal := .next (s.raise .illegalOp)

end Sys2Proof.Machine
end

