-- ==== Sys2Proof/Machine/Dispatch.lean ====
section
/-!
DEFINITION. The meaning of every operation: one arm per constructor of Instr, each a direct call.
-/

namespace Sys2Proof.Machine

def exec (i : Instr) (s : State) : Host.Outcome State Fault Refusal :=
  match i with
  | .nop => Sys2Proof.Machine.execNop s
  | .crcinit => Sys2Proof.Machine.execCrcinit s
  | .crcbyte d => Sys2Proof.Machine.execCrcbyte d s
  | .crcchk e => Sys2Proof.Machine.execCrcchk e s
  | .fstart => Sys2Proof.Machine.execFstart s
  | .fbyte d => Sys2Proof.Machine.execFbyte d s
  | .fend => Sys2Proof.Machine.execFend s
  | .rsv7 => Sys2Proof.Machine.execRsv7 s

end Sys2Proof.Machine
end

