-- ==== Sys2Proof/Machine/Step.lean ====
section
/-!
DEFINITION. The whole step, 70_reset_and_hazards.md R121: the block samples its input ports and either takes the
reset step or runs the operation of the command word it sampled.
-/

namespace Sys2Proof.Machine

/-- One rising edge of `clk` (R10, R121). -/
def step (s : State) : Host.Outcome State Fault Refusal :=
  match s.sample.rst with
  | true => .next s.advance.resetRegs
  | false => exec s.sample.instr s.advance

/-- `s` with the command word `w` driven, `rst` = 0, at the coming edge: there is no instruction memory (R39), the pins
are where the next operation comes from (log entry 3). Only the 11 bits of a command word have pins; a number above
0x7FF is no command word and `decodeTableWord` refuses it (log entry 8). -/
def State.withFetchWord (s : State) (_nbits w : Nat) : State :=
  s.drive ⟨false, opOf (BitVec.ofNat 11 w), dataOf (BitVec.ofNat 11 w)⟩

end Sys2Proof.Machine
end

