-- ==== Sys2Proof/Machine/Assembler.lean ====
section
/-!
DEFINITION. The assembler of 30_encoding.md section 7: the written form of a line (R55), reading a line back, and
the expansions of the two pseudo-instructions (R56). What R55 leaves open (blanks, lower-case digits) is log entry 10.
-/

namespace Sys2Proof.Machine

/-- The sixteen hexadecimal digits. -/
def hexDigits : List Char :=
  ['0', '1', '2', '3', '4', '5', '6', '7', '8', '9', 'A', 'B', 'C', 'D', 'E', 'F']

/-- A digit as it is written. -/
def hexChar (n : BitVec 4) : Char := hexDigits.getD n.toNat '0'

/-- The same digits in lower case. -/
def hexDigitsLower : List Char :=
  ['0', '1', '2', '3', '4', '5', '6', '7', '8', '9', 'a', 'b', 'c', 'd', 'e', 'f']

/-- A digit read back: upper and lower case (log entry 10). -/
def hexValue (c : Char) : Option (BitVec 4) :=
  match hexDigits.findIdx? (· == c) with
  | some n => some (BitVec.ofNat 4 n)
  | none => (hexDigitsLower.findIdx? (· == c)).map (BitVec.ofNat 4)

/-- `0x` and two hexadecimal digits (R55). -/
def printByte (b : Byte) : List Char :=
  ['0', 'x', hexChar (b.extractLsb' 4 4), hexChar (b.extractLsb' 0 4)]

/-- A byte operand read back. -/
def parseByte : List Char → Option Byte
  | ['0', 'x', h, l] =>
    match hexValue h, hexValue l with
    | some a, some b => some (a ++ b)
    | _, _ => none
  | _ => none

/-- The mnemonics, in capitals (R55). -/
def mnemonicText : Instr → List Char
  | .nop => ['N', 'O', 'P']
  | .crcinit => ['C', 'R', 'C', 'I', 'N', 'I', 'T']
  | .crcbyte _ => ['C', 'R', 'C', 'B', 'Y', 'T', 'E']
  | .crcchk _ => ['C', 'R', 'C', 'C', 'H', 'K']
  | .fstart => ['F', 'S', 'T', 'A', 'R', 'T']
  | .fbyte _ => ['F', 'B', 'Y', 'T', 'E']
  | .fend => ['F', 'E', 'N', 'D']
  | .rsv7 => ['R', 'S', 'V', '7']

/-- The operand of format D as it is written, nothing for format N (R46, R55). -/
def operandText : Instr → List Char
  | .nop => []
  | .crcinit => []
  | .crcbyte d => ' ' :: printByte d
  | .crcchk e => ' ' :: printByte e
  | .fstart => []
  | .fbyte d => ' ' :: printByte d
  | .fend => []
  | .rsv7 => []

/-- A line as it is written (R55). -/
def printLine : Line → List Char
  | .reset => ['R', 'E', 'S', 'E', 'T']
  | .op i => mnemonicText i ++ operandText i

/-- Why a line is not assembled. -/
inductive AsmReject where
  /-- no mnemonic of R55 with this number of operands -/
  | unknownLine
  /-- the operand is not `0x` and two hexadecimal digits -/
  | badOperand
  deriving DecidableEq, Repr

/-- The text before a comment: "A `;` starts a comment to the end of the line" (R55). -/
def stripComment : List Char → List Char
  | [] => []
  | c :: cs => if c == ';' then [] else c :: stripComment cs

/-- The words of a text between blanks; `acc` is the word being read, backwards. -/
def words (acc : List Char) : List Char → List (List Char)
  | [] => if acc.isEmpty then [] else [acc.reverse]
  | c :: cs =>
    if c == ' ' || c == '\t' then
      if acc.isEmpty then words [] cs else acc.reverse :: words [] cs
    else words (c :: acc) cs

/-- A line that is one word. -/
def parseBare (m : List Char) : Except AsmReject Line :=
  if m = ['R', 'E', 'S', 'E', 'T'] then .ok .reset
  else if m = ['N', 'O', 'P'] then .ok (.op .nop)
  else if m = ['C', 'R', 'C', 'I', 'N', 'I', 'T'] then .ok (.op .crcinit)
  else if m = ['F', 'S', 'T', 'A', 'R', 'T'] then .ok (.op .fstart)
  else if m = ['F', 'E', 'N', 'D'] then .ok (.op .fend)
  else if m = ['R', 'S', 'V', '7'] then .ok (.op .rsv7)
  else .error .unknownLine

/-- A line that is a mnemonic and an operand. -/
def parseWithOperand (m : List Char) (d : Byte) : Except AsmReject Line :=
  if m = ['C', 'R', 'C', 'B', 'Y', 'T', 'E'] then .ok (.op (.crcbyte d))
  else if m = ['C', 'R', 'C', 'C', 'H', 'K'] then .ok (.op (.crcchk d))
  else if m = ['F', 'B', 'Y', 'T', 'E'] then .ok (.op (.fbyte d))
  else .error .unknownLine

/-- Reading a line (R55): nothing for a blank line or one that is all comment. -/
def parseLine (text : List Char) : Except AsmReject (Option Line) :=
  match words [] (stripComment text) with
  | [] => .ok none
  | [m] => (parseBare m).map some
  | [m, o] =>
    match parseByte o with
    | some d => (parseWithOperand m d).map some
    | none => .error .badOperand
  | _ => .error .unknownLine

end Sys2Proof.Machine

namespace Sys2Proof

/-- The expansion of a pseudo-instruction (R56). -/
def Pseudo.expand : Pseudo → List Instr
  | .verify bytes e => .crcinit :: (bytes.map .crcbyte ++ [.crcchk e])
  | .frame bytes => .fstart :: (bytes.map .fbyte ++ [.fend])

end Sys2Proof
end

