-- ==== Sys2Proof/Machine/FrameParse.lean ====
section
/-!
DEFINITION. What the document's `decode_measurement` does in its steps 1 to 3, as functions of a byte sequence
(41_frame.md R75 to R78). No step calls these: they are what the frame operations are compared with (R83).
-/

namespace Sys2Proof.Machine

/-- A group as it stands on the wire (30_encoding.md R52). -/
structure Group where
  msb : Byte
  lsb : Byte
  crc : Byte
  deriving DecidableEq, Repr

/-- The partition of exactly 9 bytes into three groups by position (R75); no other length has one. -/
def partition : List Byte → Option (PerGroup Group)
  | [m0, l0, c0, m1, l1, c1, m2, l2, c2] => some ⟨⟨m0, l0, c0⟩, ⟨m1, l1, c1⟩, ⟨m2, l2, c2⟩⟩
  | _ => none

/-- `group_valid`: `verify_crc8([MSB, LSB], CRC)` (R76). -/
def Group.valid (g : Group) : Bool := verifyCrc8 g.msb [g.lsb] g.crc

/-- `word = {MSB, LSB}` (R78). -/
def Group.word (g : Group) : Word := mkWord g.msb g.lsb

/-- The outcome of a frame (R77). -/
inductive FrameResult where
  | words (w0 w1 w2 : Word)
  | checksumMismatch (g : Fin 3)
  | malformedResponse
  deriving DecidableEq, Repr

/-- `parse_frame` (R77): the length first, then the lowest group that does not verify, then the words. -/
def parseFrame (raw : List Byte) : FrameResult :=
  match partition raw with
  | none => .malformedResponse
  | some p =>
    if p.g0.valid = false then .checksumMismatch 0
    else if p.g1.valid = false then .checksumMismatch 1
    else if p.g2.valid = false then .checksumMismatch 2
    else .words p.g0.word p.g1.word p.g2.word

end Sys2Proof.Machine
end

