-- ==== Sys2Proof/Machine/Outputs.lean ====
section
/-!
DEFINITION. The output ports (10_state.md R11), functions of the state alone (R23), how each outcome of a frame
appears on them (41_frame.md R82), and a decoder of the output codes (30_encoding.md R54, U8).
-/

namespace Sys2Proof.Machine

/-- The ten output ports (R11). -/
structure Outputs where
  crcO   : Byte
  matchO : Bool
  doneO  : Bool
  validO : Bool
  errO   : BitVec 2
  egrpO  : BitVec 2
  word0O : Word
  word1O : Word
  word2O : Word
  faultO : BitVec 2
  deriving DecidableEq, Repr

/-- A word behind the validity gate (R23). -/
def gate (valid : Bool) (w : Word) : Word := if valid then w else Config.gatedWord

/-- The output functions (R23). -/
def State.outputs (s : State) : Outputs where
  crcO := s.crc
  matchO := s.matchFlag
  doneO := decide (s.st = .done)
  validO := s.valid
  errO := s.err.code
  egrpO := groupCode s.egrp
  word0O := gate s.valid (s.w.get 0)
  word1O := gate s.valid (s.w.get 1)
  word2O := gate s.valid (s.w.get 2)
  faultO := s.fault

/-- The ports that speak of a frame (R82's columns). -/
structure FramePorts where
  doneO  : Bool
  validO : Bool
  errO   : BitVec 2
  egrpO  : BitVec 2
  word0O : Word
  word1O : Word
  word2O : Word
  deriving DecidableEq, Repr

/-- Those ports of the block. -/
def Outputs.frame (o : Outputs) : FramePorts :=
  ⟨o.doneO, o.validO, o.errO, o.egrpO, o.word0O, o.word1O, o.word2O⟩

/-- R82's table: the row of each outcome. -/
def FrameResult.ports : FrameResult → FramePorts
  | .words w0 w1 w2 => ⟨true, true, 0, 0, w0, w1, w2⟩
  | .checksumMismatch g => ⟨true, false, 1, groupCode g, 0x0000, 0x0000, 0x0000⟩
  | .malformedResponse => ⟨true, false, 2, 0, 0x0000, 0x0000, 0x0000⟩

/-- R82's last paragraph: what the ports show in IDLE and RECV. -/
def FramePorts.silent : FramePorts := ⟨false, false, 0, 0, 0x0000, 0x0000, 0x0000⟩

/-- A decoder of `err_o` (R54): the code 3 never appears, and one that meets it has met a broken run (U8), here `none`. -/
def errOfCode (c : BitVec 2) : Option FrameErr :=
  if c = 0 then some .none else if c = 1 then some .checksumMismatch
  else if c = 2 then some .malformedResponse else none

/-- A decoder of `egrp_o` (R54, U8), `none` for the code 3. -/
def groupOfCode (c : BitVec 2) : Option (Fin 3) :=
  if h : c.toNat < 3 then some ⟨c.toNat, h⟩ else none

end Sys2Proof.Machine
end

