-- ==== Sys2Proof/Machine/Environment.lean ====
section
/-!
DEFINITION. The environment, 43_environment.md R90 to R99: nothing here is implemented by the block (00_scope.md R4)
and no step calls it (log entry 11). What the host sends to the sensor, how it feeds the block and reads its ports,
and what it makes of the three words.
-/

namespace Sys2Proof.Env

open Sys2Proof.Machine

/-- The three command frames of the document, and no others (R91). -/
inductive Command where
  | startMeasurement
  | readMeasurement
  | stopMeasurement
  deriving DecidableEq, Repr

/-- The sensor's device write address byte (R90). -/
def writeAddress : Byte := 0xC4

/-- The 16-bit command codes (R91). -/
def Command.code : Command → Word
  | .startMeasurement => 0x21B1
  | .readMeasurement => 0xEC05
  | .stopMeasurement => 0x3F86

/-- A CommandFrame: the address byte, then the command code, high byte first (R90). -/
def Command.bytes (c : Command) : List Byte := [writeAddress, hi c.code, lo c.code]

/-- The response length the host asks the transport for (R91, R92). -/
def Command.responseLength : Command → Nat
  | .startMeasurement => 0
  | .readMeasurement => 9
  | .stopMeasurement => 0

/-- What a well-behaved host drives for the bytes of one read-measurement response (R99): FSTART, the bytes in the order
returned, FEND. NOPs may stand between; this is the form without any. -/
def transactionPins (response : List Byte) : List Pins := (Pseudo.frame response).expand.map Instr.pins

/-- What the host takes from the ports after FEND (R99): the three words while `valid_o` = 1, else the error codes. -/
inductive Reading where
  | words (w0 w1 w2 : Word)
  | error (err egrp : BitVec 2)
  deriving DecidableEq, Repr

/-- R99 and R93: the words are used only while `valid_o` = 1. -/
def readPorts (o : Outputs) : Reading :=
  if o.validO then .words o.word0O o.word1O o.word2O else .error o.errO o.egrpO

/-- CO2 in ppm: the word of group 0, unscaled (R94). -/
def co2Ppm (w0 : Word) : Nat := w0.toNat

/-- The exact temperature in degrees Celsius, `-45 + 175 * r / 65535` (R95). -/
def tempExact (w1 : Word) : Rat := -45 + 175 * (w1.toNat : Rat) / 65535

/-- The exact humidity in percent, `100 * r / 65535` (R96); no clamping. -/
def humidityExact (w2 : Word) : Rat := 100 * (w2.toNat : Rat) / 65535

/-- A Measurement (R93), in the host's number type `α`. -/
structure Measurement (α : Type) where
  co2Ppm : Nat
  tempC : α
  humidityPct : α
  deriving DecidableEq, Repr

/-- Steps 4 to 7 of `decode_measurement` (R93 to R96). `floatEval` is the open parameter FloatEval, from the exact values
to the host's number type (U5, D24). No measurement where the frame did not verify. -/
def measure {α : Type} (floatEval : Rat → α) : Reading → Option (Measurement α)
  | .words w0 w1 w2 => some ⟨co2Ppm w0, floatEval (tempExact w1), floatEval (humidityExact w2)⟩
  | .error _ _ => none

/-- The caller's session (R97): `Idle -> MeasuringStarted -> {Reading}* -> Stopped`. `settled` says whether the settle
delay that the next read needs has passed. -/
inductive Session where
  | idle
  | measuringStarted (settled : Bool)
  | reading (settled : Bool)
  | stopped
  deriving DecidableEq, Repr

/-- What the caller does: send a command, or wait out a settle delay (R97). -/
inductive CallerEvent where
  | send (c : Command)
  | settle
  deriving DecidableEq, Repr

/-- The usage contract (R97): start before reading, a settle delay after start and between reads, stop when done. `none`
is a departure from the contract, which nothing enforces; what follows Stopped is not in the spec (log entry 12). -/
def Session.next : Session → CallerEvent → Option Session
  | .idle, .send .startMeasurement => some (.measuringStarted false)
  | .idle, .send .readMeasurement => none
  | .idle, .send .stopMeasurement => none
  | .idle, .settle => some .idle
  | .measuringStarted _, .send .startMeasurement => none
  | .measuringStarted true, .send .readMeasurement => some (.reading false)
  | .measuringStarted false, .send .readMeasurement => none
  | .measuringStarted _, .send .stopMeasurement => some .stopped
  | .measuringStarted _, .settle => some (.measuringStarted true)
  | .reading _, .send .startMeasurement => none
  | .reading true, .send .readMeasurement => some (.reading false)
  | .reading false, .send .readMeasurement => none
  | .reading _, .send .stopMeasurement => some .stopped
  | .reading _, .settle => some (.reading true)
  | .stopped, .send _ => none
  | .stopped, .settle => some .stopped

end Sys2Proof.Env
end

