-- ==== Sys2Proof/Safety.lean ====
section
/-!
DEFINITION. What claims about a run speak of: the invariants of reachable state (10_state.md R28, items 1 to 8),
the safety condition "FAULT = 0" (93_implementation_defined.md U11, 60_exceptions.md R103), and running the machine
on pin samples and on operations.
-/

namespace Sys2Proof.Machine

/-- Every frame register at its reset value (R28 item 5). -/
abbrev State.FrameAtReset (s : State) : Prop :=
  s.fcrc = 0xFF ∧ s.cnt = 0 ∧ s.w = ⟨0x0000, 0x0000, 0x0000⟩ ∧ s.ok = ⟨false, false, false⟩
    ∧ s.err = .none ∧ s.egrp = 0

/-- R28, items 2 to 8 (item 1 and the ranges in 2, 3 and 4 hold by the types of the fields, log entry 5). -/
abbrev State.Inv (s : State) : Prop :=
  (s.st = .idle → s.cnt = 0)
  ∧ (s.err ≠ .none → s.st = .done)
  ∧ (s.egrp ≠ 0 → s.err = .checksumMismatch)
  ∧ (s.st = .idle → s.FrameAtReset)
  ∧ (s.err = .checksumMismatch →
      s.ok.get s.egrp = false ∧ (∀ g : Fin 3, g < s.egrp → s.ok.get g = true) ∧ s.cnt = 9)
  ∧ (s.st = .done → s.err = .none → s.cnt = 9 ∧ ∀ g : Fin 3, s.ok.get g = true)
  ∧ (s.err = .malformedResponse → s.cnt ≠ 9)

/-- Every register of R27 at its reset value. -/
abbrev State.RegsAtReset (s : State) : Prop :=
  s.crc = 0xFF ∧ s.matchFlag = false ∧ s.st = .idle ∧ s.FrameAtReset ∧ s.fault = 0

/-- The two states agree on the frame registers. -/
abbrev State.SameFrame (s t : State) : Prop :=
  s.fcrc = t.fcrc ∧ s.st = t.st ∧ s.cnt = t.cnt ∧ s.w = t.w ∧ s.ok = t.ok ∧ s.err = t.err ∧ s.egrp = t.egrp

/-- The two states agree on the generic registers. -/
abbrev State.SameGeneric (s t : State) : Prop := s.crc = t.crc ∧ s.matchFlag = t.matchFlag

/-- No port fault stands: the safety condition of a run (U11). -/
abbrev State.Clean (s : State) : Prop := s.fault = 0#2

/-- `n` edges of the machine. -/
def runEdges (n : Nat) (s : State) : Host.Outcome State Fault Refusal := Host.Core.run Sys2Proof.core n s

end Sys2Proof.Machine

namespace Sys2Proof

/-- The operation keeps the host's contract in the state `s`: it is not the reserved code, and a frame byte or a frame
end comes only while a frame is open (R124). -/
def Instr.inContract (i : Instr) (s : Machine.State) : Bool :=
  match i with
  | .nop => true
  | .crcinit => true
  | .crcbyte _ => true
  | .crcchk _ => true
  | .fstart => true
  | .fbyte _ => decide (s.st = .recv)
  | .fend => decide (s.st = .recv)
  | .rsv7 => false

/-- An operation of the frame parser (41_frame.md R83). -/
def Instr.isFrameOp : Instr → Bool
  | .nop => false
  | .crcinit => false
  | .crcbyte _ => false
  | .crcchk _ => false
  | .fstart => true
  | .fbyte _ => true
  | .fend => true
  | .rsv7 => false

/-- An operation that writes CRC (40_crc8.md R69). -/
def Instr.writesCrc : Instr → Bool
  | .nop => false
  | .crcinit => true
  | .crcbyte _ => true
  | .crcchk _ => false
  | .fstart => false
  | .fbyte _ => false
  | .fend => false
  | .rsv7 => false

/-- An operation that writes MATCH (R15). -/
def Instr.writesMatch : Instr → Bool
  | .nop => false
  | .crcinit => true
  | .crcbyte _ => true
  | .crcchk _ => true
  | .fstart => false
  | .fbyte _ => false
  | .fend => false
  | .rsv7 => false

end Sys2Proof
end

