-- ==== Sys2Proof/Certificates/Slice0/Obligations.lean ====
section
/-!
DEFINITION. The statements for the provers. Where a statement holds of every state it is stated of every state,
also of those R28 rules out; a premise `Inv` stands where it is needed (log entry 6). A rule of the spec marked
there as its own decision (D<n>) is a rule of the spec here.
-/

open Sys2Proof Sys2Proof.Machine

/-! ## Reset, the step, the input ports -/

/-- R27 and R120: at an edge with `rst` = 1 every register takes its reset value, whatever the state and the command
word, and the outputs are as R27 lists them; several such edges are the same as one; at an edge with `rst` = 0 the
command word is decoded and its operation performed. -/
def Obligations.ResetStepGivesTheResetValues : Prop :=
  (∀ (s : State) (p : Pins) (more rest : List Pins),
    s.driven = p :: more ++ rest → p.rst = true → (∀ q ∈ more, q.rst = true) →
    ∃ t, runEdges (more.length + 1) s = .next t ∧ t.driven = rest
      ∧ t.crc = 0xFF ∧ t.matchFlag = false ∧ t.fcrc = 0xFF ∧ t.st.code = 0 ∧ t.cnt.val = 0
      ∧ (∀ g : Fin 3, t.w.get g = 0x0000 ∧ t.ok.get g = false)
      ∧ t.err.code = 0 ∧ t.egrp.val = 0 ∧ t.fault = 0
      ∧ t.outputs = ⟨0xFF, false, false, false, 0, 0, 0x0000, 0x0000, 0x0000, 0⟩)
  ∧ ∀ (s : State) (p : Pins) (rest : List Pins), s.driven = p :: rest → p.rst = false →
      step s = exec (decode (p.op ++ p.data)) { s with driven := rest, edges := s.edges + 1 }

/-- The model's state right after reset (the row's fixed name `State.reset`) is the state R27 describes, with nothing
driven by the host and no edge stepped (these two are the model's own choice, log entries 1 and 2). -/
def Obligations.StateAfterResetIsTheResetState : Prop :=
  State.reset.RegsAtReset ∧ State.reset.driven = [] ∧ State.reset.edges = 0
  ∧ State.reset.outputs = ⟨0xFF, false, false, false, 0, 0, 0x0000, 0x0000, 0x0000, 0⟩

/-- R121: the whole step by operation code, total, with the reset step first. What is left of the host's decisions,
and the edge count, are the model's own fields (log entries 1 and 2). -/
def Obligations.StepRunsTheSampledOperation : Prop :=
  (∀ s : State, ∃ t, step s = .next t)
  ∧ ∀ (s s' : State) (p : Pins) (rest : List Pins), s.driven = p :: rest →
      s' = { s with driven := rest, edges := s.edges + 1 } →
      (p.rst = true → ∃ t, step s = .next t ∧ t.RegsAtReset ∧ t.driven = rest)
      ∧ (p.rst = false →
          (p.op = 0 → step s = .next s')
          ∧ (p.op = 1 → step s = exec .crcinit s')
          ∧ (p.op = 2 → step s = exec (.crcbyte p.data) s')
          ∧ (p.op = 3 → step s = exec (.crcchk p.data) s')
          ∧ (p.op = 4 → step s = exec .fstart s')
          ∧ (p.op = 5 → step s = exec (.fbyte p.data) s')
          ∧ (p.op = 6 → step s = exec .fend s')
          ∧ (p.op = 7 → step s = .next { s' with fault := s'.fault ||| 0b01#2 }))

/-- The word placed where the step takes its next operation is the operation the step runs: the step is `exec` of the
decoded operation, at the state whose pin sample is used up (the placing is the model's choice, log entry 3). -/
def Obligations.PlacedWordIsTheOperationStepped : Prop :=
  ∀ (s : State) (nbits w : Nat) (i : Instr), decodeTableWord nbits w = some i →
    step (s.withFetchWord nbits w) = exec i { s with driven := s.driven.tail, edges := s.edges + 1 }

/-- Where the model holds no decision of the host's, the step is the step for some pin sample that the edge number
alone determines and nothing else is said of (the model's choice, log entry 2). -/
def Obligations.UndecidedPinsAreAFreeSample : Prop :=
  ∃ free : Nat → Pins, ∀ s : State, s.driven = [] → step s = step { s with driven := [free s.edges] }

/-! ## Encoding -/

/-- R48: the eight rows cover all words and no two select the same word; each row's range of words decodes to its
operation, with `data` as it stands for the operand. -/
def Obligations.EachCommandWordSelectsExactlyOneRow : Prop :=
  (∀ w : CommandWord, ∃ r ∈ opcodeRows, r.selects w = true ∧ r.sample.opcode = (decode w).opcode
    ∧ ∀ r' ∈ opcodeRows, r'.selects w = true → r' = r)
  ∧ ∀ d : Byte,
      decode (0x000#11 ||| d.setWidth 11) = .nop ∧ decode (0x100#11 ||| d.setWidth 11) = .crcinit
      ∧ decode (0x200#11 ||| d.setWidth 11) = .crcbyte d ∧ decode (0x300#11 ||| d.setWidth 11) = .crcchk d
      ∧ decode (0x400#11 ||| d.setWidth 11) = .fstart ∧ decode (0x500#11 ||| d.setWidth 11) = .fbyte d
      ∧ decode (0x600#11 ||| d.setWidth 11) = .fend ∧ decode (0x700#11 ||| d.setWidth 11) = .rsv7

/-- Decoding and encoding agree: an operation is read back from its word with its operand at every value; a canonical
word is written back as it was; words decode alike exactly when they have the same operation code and, in format D,
the same data. -/
def Obligations.DecodeAndEncodeAgree : Prop :=
  (∀ i : Instr, i.wf = true → decode (encode i) = i ∧ wordCanonical (encode i) = true)
  ∧ (∀ w : CommandWord, wordCanonical w = true → encode (decode w) = w)
  ∧ ∀ w w' : CommandWord, decode w = decode w' ↔
      opOf w = opOf w' ∧ (opOf w = 2 ∨ opOf w = 3 ∨ opOf w = 5 → dataOf w = dataOf w')

/-- The example words of R55, read from the spec's own table, decode to the operations of their lines; a number above
0x7FF is rejected. -/
def Obligations.ExampleWordsDecodeAsWritten : Prop :=
  decodeTableWord 16 0x000 = some .nop ∧ decodeTableWord 16 0x100 = some .crcinit
  ∧ decodeTableWord 16 0x2BE = some (.crcbyte 0xBE) ∧ decodeTableWord 16 0x392 = some (.crcchk 0x92)
  ∧ decodeTableWord 16 0x400 = some .fstart ∧ decodeTableWord 16 0x503 = some (.fbyte 0x03)
  ∧ decodeTableWord 16 0x600 = some .fend ∧ decodeTableWord 16 0x700 = some .rsv7
  ∧ decodeNumber 0x800 = .error .notACommandWord

/-- R49: in a format N operation every value of `data` has the same effect, and the assembler writes 0x00. -/
def Obligations.FormatNIgnoresItsDataBits : Prop :=
  (∀ (s : State) (op : BitVec 3) (d d' : Byte) (rest : List Pins),
    (op = 0 ∨ op = 1 ∨ op = 4 ∨ op = 6 ∨ op = 7) →
    step { s with driven := ⟨false, op, d⟩ :: rest } = step { s with driven := ⟨false, op, d'⟩ :: rest })
  ∧ encode .nop = 0x000 ∧ encode .crcinit = 0x100 ∧ encode .fstart = 0x400 ∧ encode .fend = 0x600

/-- R55's written form: every line is read back as it was written, also with a comment after it, and driving it gives
its canonical word (`RESET` gives a step with `rst` = 1). -/
def Obligations.AssemblerReadsWhatItWrites : Prop :=
  (∀ (l : Line) (comment : List Char),
    parseLine (printLine l) = .ok (some l) ∧ parseLine (printLine l ++ ';' :: comment) = .ok (some l))
  ∧ (∀ i : Instr, (Line.op i).pins.rst = false ∧ (Line.op i).pins.word = encode i)
  ∧ Line.reset.pins.rst = true

/-! ## The checksum -/

/-- R60: the bit step, as a case on bit 7 and bit by bit. -/
def Obligations.BitStepShiftsAndXorsThePolynomial : Prop :=
  ∀ c : Byte,
    (c.getLsbD 7 = true → crcBit c = (c <<< 1) ^^^ 0x31) ∧ (c.getLsbD 7 = false → crcBit c = c <<< 1)
    ∧ (crcBit c).getLsbD 0 = c.getLsbD 7 ∧ (crcBit c).getLsbD 1 = c.getLsbD 0
    ∧ (crcBit c).getLsbD 2 = c.getLsbD 1 ∧ (crcBit c).getLsbD 3 = c.getLsbD 2
    ∧ (crcBit c).getLsbD 4 = xor (c.getLsbD 3) (c.getLsbD 7)
    ∧ (crcBit c).getLsbD 5 = xor (c.getLsbD 4) (c.getLsbD 7)
    ∧ (crcBit c).getLsbD 6 = c.getLsbD 5 ∧ (crcBit c).getLsbD 7 = c.getLsbD 6

/-- R61 and R62: the byte step XORs the byte in and takes eight bit steps; a checksum starts from 0xFF and takes one
byte step per byte, in order; R62's example. Nothing is said of the empty sequence (U1). -/
def Obligations.ChecksumTakesOneByteStepPerByte : Prop :=
  (∀ c b : Byte, crcByte c b =
    crcBit (crcBit (crcBit (crcBit (crcBit (crcBit (crcBit (crcBit (c ^^^ b)))))))))
  ∧ (∀ b : Byte, crc8 b [] = crcByte 0xFF b)
  ∧ (∀ (b x : Byte) (bs : List Byte), crc8 b (bs ++ [x]) = crcByte (crc8 b bs) x)
  ∧ crcByte 0xFF 0xBE = 0x0C ∧ crc8 0xBE [0xEF] = 0x92

/-- R65 (a): `crc8_bit` and `T` are linear over XOR. -/
def Obligations.BitStepsAreLinearOverXor : Prop :=
  ∀ a b : Byte, crcBit (a ^^^ b) = crcBit a ^^^ crcBit b ∧ crcT (a ^^^ b) = crcT a ^^^ crcT b ∧ crcT 0x00 = 0x00

/-- R65 (b): the bit step and `T` are bijections, and the byte step is one in each argument. -/
def Obligations.ChecksumStepsAreBijections : Prop :=
  Function.Bijective crcBit ∧ Function.Bijective crcT
  ∧ (∀ c : Byte, Function.Bijective fun b => crcByte c b)
  ∧ ∀ b : Byte, Function.Bijective fun c => crcByte c b

/-- R65 (c) and (e): the residue of a sequence with its own checksum is zero, and only with that one; a sequence
verifies against its own checksum. -/
def Obligations.ResidueIsZeroExactlyWhenVerified : Prop :=
  (∀ c e : Byte, crcByte c e = 0x00 ↔ e = c)
  ∧ (∀ (b : Byte) (bs : List Byte) (e : Byte), verifyCrc8 b bs e = true ↔ crc8 b (bs ++ [e]) = 0x00)
  ∧ ∀ (b : Byte) (bs : List Byte), verifyCrc8 b bs (crc8 b bs) = true

/-- R65 (f): every single-bit change of a 2-byte word changes its checksum, and every change confined to one byte of a
valid group makes it invalid. -/
def Obligations.OneByteCorruptionIsDetected : Prop :=
  (∀ (w : Word) (k : Fin 16),
    crc8 (hi (w ^^^ (1#16 <<< k.val))) [lo (w ^^^ (1#16 <<< k.val))] ≠ crc8 (hi w) [lo w])
  ∧ ∀ (g : Group) (x : Byte), g.valid = true →
      (x ≠ g.msb → Group.valid { g with msb := x } = false)
      ∧ (x ≠ g.lsb → Group.valid { g with lsb := x } = false)
      ∧ (x ≠ g.crc → Group.valid { g with crc := x } = false)

/-! ## The frame as a byte sequence -/

/-- R75, R76, R77 and R78: the length first; then the lowest group whose CRC byte is not the checksum of its two bytes;
then the three big-endian words. -/
def Obligations.ParseFrameFollowsTheDocument : Prop :=
  ∀ (raw : List Byte) (msb lsb crc : Fin 3 → Byte),
    (∀ g : Fin 3, msb g = raw.getD (3 * g.val) 0 ∧ lsb g = raw.getD (3 * g.val + 1) 0
      ∧ crc g = raw.getD (3 * g.val + 2) 0) →
    (raw.length ≠ 9 → parseFrame raw = .malformedResponse)
    ∧ (raw.length = 9 →
        (∀ g : Fin 3, crc8 (msb g) [lsb g] ≠ crc g → (∀ h : Fin 3, h < g → crc8 (msb h) [lsb h] = crc h) →
          parseFrame raw = .checksumMismatch g)
        ∧ ((∀ g : Fin 3, crc8 (msb g) [lsb g] = crc g) →
            parseFrame raw = .words ((msb 0).setWidth 16 <<< 8 ||| (lsb 0).setWidth 16)
              ((msb 1).setWidth 16 <<< 8 ||| (lsb 1).setWidth 16)
              ((msb 2).setWidth 16 <<< 8 ||| (lsb 2).setWidth 16)))

/-- The document's corruption rejection (41_frame.md R77): in a frame that verifies, changing any one byte gives
ChecksumMismatch for that byte's group. -/
def Obligations.OneCorruptedByteRejectsTheFrame : Prop :=
  ∀ (raw : List Byte) (w0 w1 w2 : Word) (g : Fin 3) (k : Nat) (x : Byte),
    parseFrame raw = .words w0 w1 w2 → k < 3 → x ≠ raw.getD (3 * g.val + k) 0 →
    parseFrame (raw.set (3 * g.val + k) x) = .checksumMismatch g

/-! ## The operations: encoding, new state, frame -/

/-- R86: NOP, with any data bits, completes and writes no register; no output changes. -/
def Obligations.NopWritesNothing : Prop :=
  ∀ (s : State) (d : Byte), decode (0x000#11 ||| d.setWidth 11) = .nop ∧ encode .nop = 0x000
    ∧ exec .nop s = .next s

/-- R66: CRCINIT completes in every state; CRC is 0xFF, MATCH is 0, nothing else changes. -/
def Obligations.CrcinitStartsAChecksum : Prop :=
  ∀ (s : State) (d : Byte), decode (0x100#11 ||| d.setWidth 11) = .crcinit ∧ encode .crcinit = 0x100
    ∧ exec .crcinit s = .next { s with crc := 0xFF, matchFlag := false }

/-- R67: CRCBYTE d completes in every state; CRC is the byte step of CRC and d, MATCH is 0, nothing else changes; d
equal to CRC gives 0x00. -/
def Obligations.CrcbyteAddsOneByte : Prop :=
  ∀ (s : State) (d : Byte), decode (0x200#11 ||| d.setWidth 11) = .crcbyte d
    ∧ exec (.crcbyte d) s = .next { s with crc := crcByte s.crc d, matchFlag := false }
    ∧ crcByte d d = 0x00

/-- R68: CRCCHK e completes in every state; MATCH is the comparison of CRC with e, nothing else changes. -/
def Obligations.CrcchkComparesTheChecksum : Prop :=
  ∀ (s : State) (e : Byte), decode (0x300#11 ||| e.setWidth 11) = .crcchk e
    ∧ (s.crc = e → exec (.crcchk e) s = .next { s with matchFlag := true })
    ∧ (s.crc ≠ e → exec (.crcchk e) s = .next { s with matchFlag := false })

/-- R79: FSTART completes in every state; every frame register is written, CRC, MATCH and FAULT are not; the ports show
no frame; given twice, the second changes nothing. -/
def Obligations.FstartOpensAFreshFrame : Prop :=
  ∀ (s : State) (d : Byte), decode (0x400#11 ||| d.setWidth 11) = .fstart ∧ encode .fstart = 0x400
    ∧ ∃ t, exec .fstart s = .next t
      ∧ t = { s with st := .recv, cnt := 0, fcrc := 0xFF, w := ⟨0x0000, 0x0000, 0x0000⟩,
                     ok := ⟨false, false, false⟩, err := .none, egrp := 0 }
      ∧ t.outputs.frame = ⟨false, false, 0, 0, 0x0000, 0x0000, 0x0000⟩
      ∧ exec .fstart t = .next t

/-- R80: FBYTE d. Outside RECV only FAULT.SEQ; from the tenth byte on only CNT, to 10; at offset 3g the high half of
W[g] and a checksum started afresh, at 3g + 1 the low half and the checksum continued, at 3g + 2 the comparison in
OK[g]; CNT counts the byte; nothing else changes. -/
def Obligations.FbyteTakesTheNextFrameByte : Prop :=
  ∀ (s : State) (d : Byte), decode (0x500#11 ||| d.setWidth 11) = .fbyte d
    ∧ (s.st ≠ .recv → exec (.fbyte d) s = .next { s with fault := s.fault ||| 0b10#2 })
    ∧ (s.st = .recv → 9 ≤ s.cnt.val → exec (.fbyte d) s = .next { s with cnt := 10 })
    ∧ ∀ g : Fin 3, s.st = .recv →
        (s.cnt.val = 3 * g.val → ∃ t, exec (.fbyte d) s = .next t
          ∧ t = { s with w := t.w, fcrc := crcByte 0xFF d, cnt := t.cnt } ∧ t.cnt.val = s.cnt.val + 1
          ∧ hi (t.w.get g) = d ∧ lo (t.w.get g) = lo (s.w.get g) ∧ ∀ h : Fin 3, h ≠ g → t.w.get h = s.w.get h)
        ∧ (s.cnt.val = 3 * g.val + 1 → ∃ t, exec (.fbyte d) s = .next t
          ∧ t = { s with w := t.w, fcrc := crcByte s.fcrc d, cnt := t.cnt } ∧ t.cnt.val = s.cnt.val + 1
          ∧ hi (t.w.get g) = hi (s.w.get g) ∧ lo (t.w.get g) = d ∧ ∀ h : Fin 3, h ≠ g → t.w.get h = s.w.get h)
        ∧ (s.cnt.val = 3 * g.val + 2 → ∃ t, exec (.fbyte d) s = .next t
          ∧ t = { s with ok := t.ok, cnt := t.cnt } ∧ t.cnt.val = s.cnt.val + 1
          ∧ (t.ok.get g = true ↔ s.fcrc = d) ∧ ∀ h : Fin 3, h ≠ g → t.ok.get h = s.ok.get h)

/-- R81: FEND. Outside RECV only FAULT.SEQ; in RECV ST is DONE and ERR and EGRP say MalformedResponse when CNT is not 9,
else ChecksumMismatch of the lowest group with OK 0, else no error; nothing else changes; `done_o` is 1 and `valid_o`
is 1 only in the last case. -/
def Obligations.FendClosesAndJudgesTheFrame : Prop :=
  ∀ (s : State) (d : Byte), decode (0x600#11 ||| d.setWidth 11) = .fend ∧ encode .fend = 0x600
    ∧ (s.st ≠ .recv → exec .fend s = .next { s with fault := s.fault ||| 0b10#2 })
    ∧ (s.st = .recv →
        (s.cnt.val ≠ 9 → exec .fend s = .next { s with st := .done, err := .malformedResponse, egrp := 0 })
        ∧ (∀ g : Fin 3, s.cnt.val = 9 → s.ok.get g = false → (∀ h : Fin 3, h < g → s.ok.get h = true) →
            exec .fend s = .next { s with st := .done, err := .checksumMismatch, egrp := g })
        ∧ (s.cnt.val = 9 → (∀ g : Fin 3, s.ok.get g = true) →
            exec .fend s = .next { s with st := .done, err := .none, egrp := 0 })
        ∧ ∃ t, exec .fend s = .next t ∧ t.outputs.doneO = true
          ∧ (t.outputs.validO = true ↔ s.cnt.val = 9 ∧ ∀ g : Fin 3, s.ok.get g = true))

/-- R87: RSV7, with any data bits, completes: FAULT.ILL is 1 afterwards, nothing else changes, and a further one changes
nothing. -/
def Obligations.ReservedCodeOnlySetsIll : Prop :=
  ∀ (s : State) (d : Byte), decode (0x700#11 ||| d.setWidth 11) = .rsv7
    ∧ ∃ t, exec .rsv7 s = .next t ∧ t = { s with fault := t.fault } ∧ t.ill = true ∧ t.seq = s.seq
      ∧ exec .rsv7 t = .next t

/-! ## Whole-machine rules -/

/-- The lists of writers in R12 and R14 to R22: a register changes only by an operation listed as its writer, and no
operation touches the model's own fields. -/
def Obligations.EachRegisterHasOnlyItsWriters : Prop :=
  ∀ (i : Instr) (s t : State), exec i s = .next t →
    ((i ≠ .crcinit → (∀ d, i ≠ .crcbyte d) → t.crc = s.crc)
    ∧ (i ≠ .crcinit → (∀ d, i ≠ .crcbyte d) → (∀ e, i ≠ .crcchk e) → t.matchFlag = s.matchFlag)
    ∧ (i ≠ .fstart → (∀ d, i ≠ .fbyte d) →
        t.fcrc = s.fcrc ∧ t.cnt = s.cnt ∧ t.w = s.w ∧ t.ok = s.ok)
    ∧ (i ≠ .fstart → ¬(i = .fend ∧ s.st = .recv) → t.st = s.st ∧ t.err = s.err ∧ t.egrp = s.egrp)
    ∧ (i ≠ .rsv7 → ¬(((∃ d, i = .fbyte d) ∨ i = .fend) ∧ s.st ≠ .recv) → t.fault = s.fault)
    ∧ t.driven = s.driven ∧ t.edges = s.edges)

/-- The two checksum engines are isolated from each other (R124, D6; 90_conflicts.md C4): what an operation leaves in
the frame registers, and so on the frame's ports, depends on nothing but the frame registers before it, and the same
of the generic registers. -/
def Obligations.FrameAndGenericStateAreIsolated : Prop :=
  ∀ (i : Instr) (s₁ s₂ t₁ t₂ : State), exec i s₁ = .next t₁ → exec i s₂ = .next t₂ →
    (s₁.SameFrame s₂ → t₁.SameFrame t₂ ∧ t₁.outputs.frame = t₂.outputs.frame)
    ∧ (s₁.SameGeneric s₂ → t₁.SameGeneric t₂ ∧ t₁.outputs.crcO = t₂.outputs.crcO
        ∧ t₁.outputs.matchO = t₂.outputs.matchO)

/-- R84: all transitions of ST, and that IDLE is left only by FSTART and entered only by a reset step. -/
def Obligations.FrameStateMovesAsTabulated : Prop :=
  ∀ s t : State, step s = .next t →
    (s.sample.rst = true → t.st = .idle)
    ∧ (s.sample.rst = false →
        (s.sample.instr = .fstart → t.st = .recv)
        ∧ (s.sample.instr = .fend → t.st = if s.st = .recv then .done else s.st)
        ∧ (s.sample.instr ≠ .fstart → s.sample.instr ≠ .fend → t.st = s.st)
        ∧ (s.st ≠ .recv → (s.sample.instr = .fend ∨ ∃ d, s.sample.instr = .fbyte d) →
            t.seq = true ∧ s.SameFrame t))
    ∧ (s.st = .idle → t.st ≠ .idle → s.sample.rst = false ∧ s.sample.instr = .fstart)
    ∧ (s.st ≠ .idle → t.st = .idle → s.sample.rst = true)

/-- R103 and R22: the port faults. IllegalOp exactly when operation code 7 is sampled, SequenceFault exactly when FBYTE
or FEND is sampled outside RECV, in a non-reset step; neither changes another register or another output; a bit that is
1 stays 1 in every step that is no reset step, and a reset step clears both. -/
def Obligations.PortFaultsAreRecordedAndSticky : Prop :=
  ∀ (s : State) (p : Pins) (rest : List Pins), s.driven = p :: rest → ∃ t, step s = .next t ∧
    (p.rst = true → t.fault = 0)
    ∧ (p.rst = false →
        (t.ill = true ↔ s.ill = true ∨ p.op = 7)
        ∧ (t.seq = true ↔ s.seq = true ∨ (p.op = 5 ∨ p.op = 6) ∧ s.st ≠ .recv)
        ∧ (p.op = 7 ∨ (p.op = 5 ∨ p.op = 6) ∧ s.st ≠ .recv →
            s.SameFrame t ∧ s.SameGeneric t ∧ t.outputs = { s.outputs with faultO := t.fault }))

/-- R124 and U11: from a clean state an operation leaves the state clean exactly when the host kept its contract: not
the reserved code, and FBYTE and FEND only while a frame is open. -/
def Obligations.FaultFreeExactlyInContract : Prop :=
  ∀ (i : Instr) (s : State), s.Clean → ∃ t, exec i s = .next t ∧ (t.Clean ↔ i.inContract s = true)

/-- R109 and R110: a standing frame error is left as it is by every step but a reset step or an FSTART, which clear
it. -/
def Obligations.FrameErrorStandsUntilCleared : Prop :=
  ∀ s : State, s.Inv → s.err ≠ .none → ∃ t, step s = .next t ∧
    ((s.sample.rst = true ∨ s.sample.instr = .fstart) → t.err = .none ∧ t.egrp = 0)
    ∧ (s.sample.rst = false → s.sample.instr ≠ .fstart → t.err = s.err ∧ t.egrp = s.egrp)

/-- R23 with R82, in every state that meets R28: while no frame has been ended the frame's ports are silent; after it,
`valid_o` is 1 exactly when the frame had 9 bytes and every group verified, and then the ports show the words of W;
otherwise all words read 0x0000 and the ports name MalformedResponse for a length that is not 9 and else
ChecksumMismatch with the lowest failing group. -/
def Obligations.PortsShowTheStandingResult : Prop :=
  ∀ s : State, s.Inv →
    (s.st ≠ .done → s.outputs.frame = ⟨false, false, 0, 0, 0x0000, 0x0000, 0x0000⟩)
    ∧ (s.st = .done →
        (s.outputs.validO = true ↔ s.cnt.val = 9 ∧ ∀ g : Fin 3, s.ok.get g = true)
        ∧ (s.outputs.validO = true →
            s.outputs.frame = ⟨true, true, 0, 0, s.w.get 0, s.w.get 1, s.w.get 2⟩)
        ∧ (s.cnt.val ≠ 9 → s.outputs.frame = ⟨true, false, 2, 0, 0x0000, 0x0000, 0x0000⟩)
        ∧ ∀ g : Fin 3, s.cnt.val = 9 → s.ok.get g = false → (∀ h : Fin 3, h < g → s.ok.get h = true) →
            s.outputs.frame = ⟨true, false, 1, BitVec.ofNat 2 g.val, 0x0000, 0x0000, 0x0000⟩)

/-- R33: CRCINIT, CRCCHK with the same operand, FSTART and NOP are idempotent when repeated; FBYTE in an open frame
below saturation is not. -/
def Obligations.RepeatedOperationsAreIdempotent : Prop :=
  (∀ (i : Instr) (s : State), (i = .crcinit ∨ (∃ e, i = .crcchk e) ∨ i = .fstart ∨ i = .nop) →
    ∃ t, exec i s = .next t ∧ exec i t = .next t)
  ∧ ∀ (s : State) (d : Byte), s.st = .recv → s.cnt.val < 9 →
      ∃ t u, exec (.fbyte d) s = .next t ∧ exec (.fbyte d) t = .next u ∧ t.cnt.val < u.cnt.val

/-! ## Invariants -/

/-- R28, items 1 to 8, hold right after reset. -/
def Obligations.InvariantHoldsAtReset : Prop := State.reset.Inv

/-- R28, items 1 to 8, are kept by every step, from every state that meets them, whatever the host drives. -/
def Obligations.InvariantKeptByEveryStep : Prop :=
  ∀ s t : State, s.Inv → step s = .next t → t.Inv

/-- R28, all ten items: in every state reached from a reset step by any sequence of pin samples. Item 9 names the CRCCHK
that set MATCH and says that CRC held the same value at it; item 10 is the stickiness of FAULT. -/
def Obligations.StatesReachedFromResetMeetTheInvariants : Prop :=
  ∀ (s : State) (p : Pins) (pins rest : List Pins), s.driven = p :: pins ++ rest → p.rst = true →
    ∃ t, runEdges (pins.length + 1) s = .next t
      ∧ t.st.code ≠ 3 ∧ t.cnt.val ≤ 10 ∧ t.err.code ≠ 3 ∧ groupCode t.egrp ≠ 3
      ∧ t.Inv
      ∧ (t.matchFlag = true → ∃ (pre post : List Pins) (q : Pins), p :: pins = pre ++ q :: post
          ∧ q.rst = false ∧ q.instr = .crcchk t.crc
          ∧ (∀ r ∈ post, r.rst = false ∧ r.instr.writesMatch = false)
          ∧ ∃ u, runEdges pre.length s = .next u ∧ u.crc = t.crc)
      ∧ ∀ pre post : List Pins, p :: pins = pre ++ post → (∀ r ∈ post, r.rst = false) →
          ∀ u, runEdges pre.length s = .next u →
            (u.ill = true → t.ill = true) ∧ (u.seq = true → t.seq = true)

/-! ## Correspondence with the document's functions, over runs -/

/-- R69: after a reset step or a CRCINIT and then CRCBYTEs of b1 .. bn, with any operations that do not write CRC among
them, `crc_o` is the checksum of the bytes (0xFF for none), and if the next operation that writes MATCH is CRCCHK e,
`match_o` is `verify_crc8` of the bytes and e. -/
def Obligations.GenericRunComputesTheChecksum : Prop :=
  ∀ (s : State) (p : Pins) (pins rest : List Pins) (bs : List Byte),
    s.driven = p :: pins ++ rest → (p.rst = true ∨ p.instr = .crcinit) → (∀ q ∈ pins, q.rst = false) →
    (pins.map Pins.instr).filter Instr.writesCrc = bs.map Instr.crcbyte →
    ∃ t, runEdges (pins.length + 1) s = .next t ∧ t.driven = rest
      ∧ (bs = [] → t.outputs.crcO = 0xFF)
      ∧ ∀ (b : Byte) (bs' : List Byte), bs = b :: bs' → t.outputs.crcO = crc8 b bs'
        ∧ ∀ (more rest' : List Pins) (q : Pins) (e : Byte), rest = more ++ q :: rest' →
            (∀ r ∈ more, r.rst = false ∧ r.instr.writesMatch = false) → q.rst = false → q.instr = .crcchk e →
            ∃ u, runEdges (more.length + 1) t = .next u ∧ u.outputs.matchO = verifyCrc8 b bs' e

/-- R83: after an FSTART, FBYTEs of b0 .. b(n-1) and an FEND, with any operations that are not frame operations among
them, the ports show R82's row for `parse_frame` of the bytes, for every n; while the frame is open, after m bytes, CNT,
W and OK hold what R83 says. -/
def Obligations.FrameRunShowsParseFrame : Prop :=
  ∀ (s : State) (pins rest : List Pins) (bs : List Byte),
    s.driven = pins ++ rest → (∀ q ∈ pins, q.rst = false) →
    ((pins.map Pins.instr).filter Instr.isFrameOp = .fstart :: (bs.map Instr.fbyte ++ [.fend]) →
      ∃ t, runEdges pins.length s = .next t ∧ t.driven = rest ∧ t.outputs.frame = (parseFrame bs).ports)
    ∧ ((pins.map Pins.instr).filter Instr.isFrameOp = .fstart :: bs.map Instr.fbyte →
      ∃ t, runEdges pins.length s = .next t ∧ t.driven = rest ∧ t.st = .recv ∧ t.cnt.val = min bs.length 10
        ∧ (bs.length ≤ 9 → ∀ g : Fin 3,
            (g.val < bs.length / 3 →
              t.w.get g = bs.getD (3 * g.val) 0 ++ bs.getD (3 * g.val + 1) 0
              ∧ t.ok.get g =
                verifyCrc8 (bs.getD (3 * g.val) 0) [bs.getD (3 * g.val + 1) 0] (bs.getD (3 * g.val + 2) 0))
            ∧ (g.val = bs.length / 3 →
              hi (t.w.get g) = (if 1 ≤ bs.length % 3 then bs.getD (3 * g.val) 0 else 0)
              ∧ lo (t.w.get g) = (if bs.length % 3 = 2 then bs.getD (3 * g.val + 1) 0 else 0)
              ∧ t.ok.get g = false)
            ∧ (bs.length / 3 < g.val → t.w.get g = 0 ∧ t.ok.get g = false)))

/-- R56: the two pseudo-instructions expand as stated, and running the expansion, from any state, computes the
document's functions. -/
def Obligations.PseudoInstructionsComputeTheDocument : Prop :=
  (∀ (s : State) (b : Byte) (bs : List Byte) (e : Byte) (rest : List Pins),
    (Pseudo.verify (b :: bs) e).expand = .crcinit :: ((b :: bs).map Instr.crcbyte ++ [.crcchk e])
    ∧ (s.driven = (Pseudo.verify (b :: bs) e).expand.map Instr.pins ++ rest →
        ∃ t, runEdges (bs.length + 3) s = .next t ∧ t.driven = rest
          ∧ t.outputs.matchO = verifyCrc8 b bs e ∧ t.outputs.crcO = crc8 b bs))
  ∧ ∀ (s : State) (bs : List Byte) (rest : List Pins),
    (Pseudo.frame bs).expand = .fstart :: (bs.map Instr.fbyte ++ [.fend])
    ∧ (s.driven = (Pseudo.frame bs).expand.map Instr.pins ++ rest →
        ∃ t, runEdges (bs.length + 2) s = .next t ∧ t.driven = rest
          ∧ t.outputs.frame = (parseFrame bs).ports)

/-! ## The environment (outside the block) -/

/-- R90 and R91: each command frame is 3 bytes, the write address and the big-endian command code. -/
def Obligations.CommandFramesAreThreeBytes : Prop :=
  Env.Command.startMeasurement.bytes = [0xC4, 0x21, 0xB1]
  ∧ Env.Command.readMeasurement.bytes = [0xC4, 0xEC, 0x05]
  ∧ Env.Command.stopMeasurement.bytes = [0xC4, 0x3F, 0x86]
  ∧ ∀ c : Env.Command, c.bytes.length = 3 ∧ (c.responseLength = 0 ∨ c.responseLength = 9)

/-- R95 and R96: the exact values of the two conversions, their ends, that the temperature increases with the word and
that the humidity stays within 0 and 100. -/
def Obligations.ConversionsHaveTheExactValues : Prop :=
  (∀ w : Word, Env.tempExact w = -45 + 35 * (w.toNat : Rat) / 13107
    ∧ Env.humidityExact w = 20 * (w.toNat : Rat) / 13107
    ∧ 0 ≤ Env.humidityExact w ∧ Env.humidityExact w ≤ 100)
  ∧ (∀ v w : Word, v < w → Env.tempExact v < Env.tempExact w)
  ∧ Env.tempExact 0 = -45 ∧ Env.tempExact 65535 = 130
  ∧ Env.humidityExact 0 = 0 ∧ Env.humidityExact 65535 = 100

/-- End to end (R82, R83, R93, R99): a host that feeds the block the response of a sensor that sent three words with
their checksums, whatever the block did before and whatever the host's number type is, measures those words; any other
outcome of the bytes gives no measurement. -/
def Obligations.TransactionMeasuresTheSensorsWords : Prop :=
  (∀ (α : Type) (floatEval : Rat → α) (s : State) (w0 w1 w2 : Word) (rest : List Pins),
    s.driven = Env.transactionPins
      [hi w0, lo w0, crc8 (hi w0) [lo w0], hi w1, lo w1, crc8 (hi w1) [lo w1],
       hi w2, lo w2, crc8 (hi w2) [lo w2]] ++ rest →
    ∃ t, runEdges 11 s = .next t
      ∧ Env.measure floatEval (Env.readPorts t.outputs)
        = some ⟨w0.toNat, floatEval (Env.tempExact w1), floatEval (Env.humidityExact w2)⟩)
  ∧ ∀ (α : Type) (floatEval : Rat → α) (s : State) (response : List Byte) (rest : List Pins),
    s.driven = Env.transactionPins response ++ rest →
    (∀ w0 w1 w2 : Word, parseFrame response ≠ .words w0 w1 w2) →
    ∃ t, runEdges (response.length + 2) s = .next t
      ∧ Env.measure floatEval (Env.readPorts t.outputs) = none
end

