-- ==== Sys2Proof/Laws/Checksum.lean ====
section
/-!
SUPPORT. Small lemmas of the checksum functions.
-/

namespace Sys2Proof.Machine

@[simp] theorem crcRun_nil (c : Byte) : crcRun c [] = c := rfl

@[simp] theorem crcRun_cons (c b : Byte) (bs : List Byte) : crcRun c (b :: bs) = crcRun (crcByte c b) bs := rfl

/-- The register after two runs of bytes is the register after the two in order. -/
theorem crcRun_append (c : Byte) (xs ys : List Byte) : crcRun c (xs ++ ys) = crcRun (crcRun c xs) ys := by
  induction xs generalizing c with
  | nil => rfl
  | cons b bs ih => exact ih (crcByte c b)

/-- The checksum is the register that a run from INIT over all its bytes leaves. -/
theorem crc8_eq_run (b : Byte) (rest : List Byte) : crc8 b rest = crcRun 0xFF (b :: rest) := rfl

/-- The bit step in one formula: shift, and the polynomial where bit 7 was set. -/
theorem crcBit_eq (c : Byte) : crcBit c = shl8 c ^^^ (if c.getLsbD 7 then 0x31#8 else 0#8) := by
  unfold crcBit Config.poly
  split <;> simp

end Sys2Proof.Machine
end

