-- ==== Sys2Proof/Laws/State.lean ====
section
/-!
SUPPORT. Field by field, what each update of the state in Machine/Ops.lean leaves: one lemma per field per update,
all by rfl, so that no proof unfolds an update.
-/

namespace Sys2Proof.Machine

@[simp] theorem State.setCrc_crc (s : State) (v : Byte) : (s.setCrc v).crc = v := rfl
@[simp] theorem State.setCrc_matchFlag (s : State) (v : Byte) : (s.setCrc v).matchFlag = s.matchFlag := rfl
@[simp] theorem State.setCrc_fcrc (s : State) (v : Byte) : (s.setCrc v).fcrc = s.fcrc := rfl
@[simp] theorem State.setCrc_st (s : State) (v : Byte) : (s.setCrc v).st = s.st := rfl
@[simp] theorem State.setCrc_cnt (s : State) (v : Byte) : (s.setCrc v).cnt = s.cnt := rfl
@[simp] theorem State.setCrc_w (s : State) (v : Byte) : (s.setCrc v).w = s.w := rfl
@[simp] theorem State.setCrc_ok (s : State) (v : Byte) : (s.setCrc v).ok = s.ok := rfl
@[simp] theorem State.setCrc_err (s : State) (v : Byte) : (s.setCrc v).err = s.err := rfl
@[simp] theorem State.setCrc_egrp (s : State) (v : Byte) : (s.setCrc v).egrp = s.egrp := rfl
@[simp] theorem State.setCrc_fault (s : State) (v : Byte) : (s.setCrc v).fault = s.fault := rfl
@[simp] theorem State.setCrc_driven (s : State) (v : Byte) : (s.setCrc v).driven = s.driven := rfl
@[simp] theorem State.setCrc_edges (s : State) (v : Byte) : (s.setCrc v).edges = s.edges := rfl

@[simp] theorem State.setMatch_crc (s : State) (v : Bool) : (s.setMatch v).crc = s.crc := rfl
@[simp] theorem State.setMatch_matchFlag (s : State) (v : Bool) : (s.setMatch v).matchFlag = v := rfl
@[simp] theorem State.setMatch_fcrc (s : State) (v : Bool) : (s.setMatch v).fcrc = s.fcrc := rfl
@[simp] theorem State.setMatch_st (s : State) (v : Bool) : (s.setMatch v).st = s.st := rfl
@[simp] theorem State.setMatch_cnt (s : State) (v : Bool) : (s.setMatch v).cnt = s.cnt := rfl
@[simp] theorem State.setMatch_w (s : State) (v : Bool) : (s.setMatch v).w = s.w := rfl
@[simp] theorem State.setMatch_ok (s : State) (v : Bool) : (s.setMatch v).ok = s.ok := rfl
@[simp] theorem State.setMatch_err (s : State) (v : Bool) : (s.setMatch v).err = s.err := rfl
@[simp] theorem State.setMatch_egrp (s : State) (v : Bool) : (s.setMatch v).egrp = s.egrp := rfl
@[simp] theorem State.setMatch_fault (s : State) (v : Bool) : (s.setMatch v).fault = s.fault := rfl
@[simp] theorem State.setMatch_driven (s : State) (v : Bool) : (s.setMatch v).driven = s.driven := rfl
@[simp] theorem State.setMatch_edges (s : State) (v : Bool) : (s.setMatch v).edges = s.edges := rfl

@[simp] theorem State.setFcrc_crc (s : State) (v : Byte) : (s.setFcrc v).crc = s.crc := rfl
@[simp] theorem State.setFcrc_matchFlag (s : State) (v : Byte) : (s.setFcrc v).matchFlag = s.matchFlag := rfl
@[simp] theorem State.setFcrc_fcrc (s : State) (v : Byte) : (s.setFcrc v).fcrc = v := rfl
@[simp] theorem State.setFcrc_st (s : State) (v : Byte) : (s.setFcrc v).st = s.st := rfl
@[simp] theorem State.setFcrc_cnt (s : State) (v : Byte) : (s.setFcrc v).cnt = s.cnt := rfl
@[simp] theorem State.setFcrc_w (s : State) (v : Byte) : (s.setFcrc v).w = s.w := rfl
@[simp] theorem State.setFcrc_ok (s : State) (v : Byte) : (s.setFcrc v).ok = s.ok := rfl
@[simp] theorem State.setFcrc_err (s : State) (v : Byte) : (s.setFcrc v).err = s.err := rfl
@[simp] theorem State.setFcrc_egrp (s : State) (v : Byte) : (s.setFcrc v).egrp = s.egrp := rfl
@[simp] theorem State.setFcrc_fault (s : State) (v : Byte) : (s.setFcrc v).fault = s.fault := rfl
@[simp] theorem State.setFcrc_driven (s : State) (v : Byte) : (s.setFcrc v).driven = s.driven := rfl
@[simp] theorem State.setFcrc_edges (s : State) (v : Byte) : (s.setFcrc v).edges = s.edges := rfl

@[simp] theorem State.setSt_crc (s : State) (v : FrameState) : (s.setSt v).crc = s.crc := rfl
@[simp] theorem State.setSt_matchFlag (s : State) (v : FrameState) : (s.setSt v).matchFlag = s.matchFlag := rfl
@[simp] theorem State.setSt_fcrc (s : State) (v : FrameState) : (s.setSt v).fcrc = s.fcrc := rfl
@[simp] theorem State.setSt_st (s : State) (v : FrameState) : (s.setSt v).st = v := rfl
@[simp] theorem State.setSt_cnt (s : State) (v : FrameState) : (s.setSt v).cnt = s.cnt := rfl
@[simp] theorem State.setSt_w (s : State) (v : FrameState) : (s.setSt v).w = s.w := rfl
@[simp] theorem State.setSt_ok (s : State) (v : FrameState) : (s.setSt v).ok = s.ok := rfl
@[simp] theorem State.setSt_err (s : State) (v : FrameState) : (s.setSt v).err = s.err := rfl
@[simp] theorem State.setSt_egrp (s : State) (v : FrameState) : (s.setSt v).egrp = s.egrp := rfl
@[simp] theorem State.setSt_fault (s : State) (v : FrameState) : (s.setSt v).fault = s.fault := rfl
@[simp] theorem State.setSt_driven (s : State) (v : FrameState) : (s.setSt v).driven = s.driven := rfl
@[simp] theorem State.setSt_edges (s : State) (v : FrameState) : (s.setSt v).edges = s.edges := rfl

@[simp] theorem State.setCnt_crc (s : State) (v : Fin 11) : (s.setCnt v).crc = s.crc := rfl
@[simp] theorem State.setCnt_matchFlag (s : State) (v : Fin 11) : (s.setCnt v).matchFlag = s.matchFlag := rfl
@[simp] theorem State.setCnt_fcrc (s : State) (v : Fin 11) : (s.setCnt v).fcrc = s.fcrc := rfl
@[simp] theorem State.setCnt_st (s : State) (v : Fin 11) : (s.setCnt v).st = s.st := rfl
@[simp] theorem State.setCnt_cnt (s : State) (v : Fin 11) : (s.setCnt v).cnt = v := rfl
@[simp] theorem State.setCnt_w (s : State) (v : Fin 11) : (s.setCnt v).w = s.w := rfl
@[simp] theorem State.setCnt_ok (s : State) (v : Fin 11) : (s.setCnt v).ok = s.ok := rfl
@[simp] theorem State.setCnt_err (s : State) (v : Fin 11) : (s.setCnt v).err = s.err := rfl
@[simp] theorem State.setCnt_egrp (s : State) (v : Fin 11) : (s.setCnt v).egrp = s.egrp := rfl
@[simp] theorem State.setCnt_fault (s : State) (v : Fin 11) : (s.setCnt v).fault = s.fault := rfl
@[simp] theorem State.setCnt_driven (s : State) (v : Fin 11) : (s.setCnt v).driven = s.driven := rfl
@[simp] theorem State.setCnt_edges (s : State) (v : Fin 11) : (s.setCnt v).edges = s.edges := rfl

@[simp] theorem State.setW_crc (s : State) (v : PerGroup Word) : (s.setW v).crc = s.crc := rfl
@[simp] theorem State.setW_matchFlag (s : State) (v : PerGroup Word) : (s.setW v).matchFlag = s.matchFlag := rfl
@[simp] theorem State.setW_fcrc (s : State) (v : PerGroup Word) : (s.setW v).fcrc = s.fcrc := rfl
@[simp] theorem State.setW_st (s : State) (v : PerGroup Word) : (s.setW v).st = s.st := rfl
@[simp] theorem State.setW_cnt (s : State) (v : PerGroup Word) : (s.setW v).cnt = s.cnt := rfl
@[simp] theorem State.setW_w (s : State) (v : PerGroup Word) : (s.setW v).w = v := rfl
@[simp] theorem State.setW_ok (s : State) (v : PerGroup Word) : (s.setW v).ok = s.ok := rfl
@[simp] theorem State.setW_err (s : State) (v : PerGroup Word) : (s.setW v).err = s.err := rfl
@[simp] theorem State.setW_egrp (s : State) (v : PerGroup Word) : (s.setW v).egrp = s.egrp := rfl
@[simp] theorem State.setW_fault (s : State) (v : PerGroup Word) : (s.setW v).fault = s.fault := rfl
@[simp] theorem State.setW_driven (s : State) (v : PerGroup Word) : (s.setW v).driven = s.driven := rfl
@[simp] theorem State.setW_edges (s : State) (v : PerGroup Word) : (s.setW v).edges = s.edges := rfl

@[simp] theorem State.setOk_crc (s : State) (v : PerGroup Bool) : (s.setOk v).crc = s.crc := rfl
@[simp] theorem State.setOk_matchFlag (s : State) (v : PerGroup Bool) : (s.setOk v).matchFlag = s.matchFlag := rfl
@[simp] theorem State.setOk_fcrc (s : State) (v : PerGroup Bool) : (s.setOk v).fcrc = s.fcrc := rfl
@[simp] theorem State.setOk_st (s : State) (v : PerGroup Bool) : (s.setOk v).st = s.st := rfl
@[simp] theorem State.setOk_cnt (s : State) (v : PerGroup Bool) : (s.setOk v).cnt = s.cnt := rfl
@[simp] theorem State.setOk_w (s : State) (v : PerGroup Bool) : (s.setOk v).w = s.w := rfl
@[simp] theorem State.setOk_ok (s : State) (v : PerGroup Bool) : (s.setOk v).ok = v := rfl
@[simp] theorem State.setOk_err (s : State) (v : PerGroup Bool) : (s.setOk v).err = s.err := rfl
@[simp] theorem State.setOk_egrp (s : State) (v : PerGroup Bool) : (s.setOk v).egrp = s.egrp := rfl
@[simp] theorem State.setOk_fault (s : State) (v : PerGroup Bool) : (s.setOk v).fault = s.fault := rfl
@[simp] theorem State.setOk_driven (s : State) (v : PerGroup Bool) : (s.setOk v).driven = s.driven := rfl
@[simp] theorem State.setOk_edges (s : State) (v : PerGroup Bool) : (s.setOk v).edges = s.edges := rfl

@[simp] theorem State.setErr_crc (s : State) (e : FrameErr) (g : Fin 3) : (s.setErr e g).crc = s.crc := rfl
@[simp] theorem State.setErr_matchFlag (s : State) (e : FrameErr) (g : Fin 3) : (s.setErr e g).matchFlag = s.matchFlag := rfl
@[simp] theorem State.setErr_fcrc (s : State) (e : FrameErr) (g : Fin 3) : (s.setErr e g).fcrc = s.fcrc := rfl
@[simp] theorem State.setErr_st (s : State) (e : FrameErr) (g : Fin 3) : (s.setErr e g).st = s.st := rfl
@[simp] theorem State.setErr_cnt (s : State) (e : FrameErr) (g : Fin 3) : (s.setErr e g).cnt = s.cnt := rfl
@[simp] theorem State.setErr_w (s : State) (e : FrameErr) (g : Fin 3) : (s.setErr e g).w = s.w := rfl
@[simp] theorem State.setErr_ok (s : State) (e : FrameErr) (g : Fin 3) : (s.setErr e g).ok = s.ok := rfl
@[simp] theorem State.setErr_err (s : State) (e : FrameErr) (g : Fin 3) : (s.setErr e g).err = e := rfl
@[simp] theorem State.setErr_egrp (s : State) (e : FrameErr) (g : Fin 3) : (s.setErr e g).egrp = g := rfl
@[simp] theorem State.setErr_fault (s : State) (e : FrameErr) (g : Fin 3) : (s.setErr e g).fault = s.fault := rfl
@[simp] theorem State.setErr_driven (s : State) (e : FrameErr) (g : Fin 3) : (s.setErr e g).driven = s.driven := rfl
@[simp] theorem State.setErr_edges (s : State) (e : FrameErr) (g : Fin 3) : (s.setErr e g).edges = s.edges := rfl

@[simp] theorem State.setFault_crc (s : State) (v : BitVec 2) : (s.setFault v).crc = s.crc := rfl
@[simp] theorem State.setFault_matchFlag (s : State) (v : BitVec 2) : (s.setFault v).matchFlag = s.matchFlag := rfl
@[simp] theorem State.setFault_fcrc (s : State) (v : BitVec 2) : (s.setFault v).fcrc = s.fcrc := rfl
@[simp] theorem State.setFault_st (s : State) (v : BitVec 2) : (s.setFault v).st = s.st := rfl
@[simp] theorem State.setFault_cnt (s : State) (v : BitVec 2) : (s.setFault v).cnt = s.cnt := rfl
@[simp] theorem State.setFault_w (s : State) (v : BitVec 2) : (s.setFault v).w = s.w := rfl
@[simp] theorem State.setFault_ok (s : State) (v : BitVec 2) : (s.setFault v).ok = s.ok := rfl
@[simp] theorem State.setFault_err (s : State) (v : BitVec 2) : (s.setFault v).err = s.err := rfl
@[simp] theorem State.setFault_egrp (s : State) (v : BitVec 2) : (s.setFault v).egrp = s.egrp := rfl
@[simp] theorem State.setFault_fault (s : State) (v : BitVec 2) : (s.setFault v).fault = v := rfl
@[simp] theorem State.setFault_driven (s : State) (v : BitVec 2) : (s.setFault v).driven = s.driven := rfl
@[simp] theorem State.setFault_edges (s : State) (v : BitVec 2) : (s.setFault v).edges = s.edges := rfl

@[simp] theorem State.resetRegs_crc (s : State) : s.resetRegs.crc = 0xFF := rfl
@[simp] theorem State.resetRegs_matchFlag (s : State) : s.resetRegs.matchFlag = false := rfl
@[simp] theorem State.resetRegs_fcrc (s : State) : s.resetRegs.fcrc = 0xFF := rfl
@[simp] theorem State.resetRegs_st (s : State) : s.resetRegs.st = .idle := rfl
@[simp] theorem State.resetRegs_cnt (s : State) : s.resetRegs.cnt = 0 := rfl
@[simp] theorem State.resetRegs_w (s : State) : s.resetRegs.w = ⟨0x0000, 0x0000, 0x0000⟩ := rfl
@[simp] theorem State.resetRegs_ok (s : State) : s.resetRegs.ok = ⟨false, false, false⟩ := rfl
@[simp] theorem State.resetRegs_err (s : State) : s.resetRegs.err = .none := rfl
@[simp] theorem State.resetRegs_egrp (s : State) : s.resetRegs.egrp = 0 := rfl
@[simp] theorem State.resetRegs_fault (s : State) : s.resetRegs.fault = 0 := rfl
@[simp] theorem State.resetRegs_driven (s : State) : s.resetRegs.driven = s.driven := rfl
@[simp] theorem State.resetRegs_edges (s : State) : s.resetRegs.edges = s.edges := rfl

@[simp] theorem State.advance_crc (s : State) : s.advance.crc = s.crc := rfl
@[simp] theorem State.advance_matchFlag (s : State) : s.advance.matchFlag = s.matchFlag := rfl
@[simp] theorem State.advance_fcrc (s : State) : s.advance.fcrc = s.fcrc := rfl
@[simp] theorem State.advance_st (s : State) : s.advance.st = s.st := rfl
@[simp] theorem State.advance_cnt (s : State) : s.advance.cnt = s.cnt := rfl
@[simp] theorem State.advance_w (s : State) : s.advance.w = s.w := rfl
@[simp] theorem State.advance_ok (s : State) : s.advance.ok = s.ok := rfl
@[simp] theorem State.advance_err (s : State) : s.advance.err = s.err := rfl
@[simp] theorem State.advance_egrp (s : State) : s.advance.egrp = s.egrp := rfl
@[simp] theorem State.advance_fault (s : State) : s.advance.fault = s.fault := rfl
@[simp] theorem State.advance_driven (s : State) : s.advance.driven = s.driven.tail := rfl
@[simp] theorem State.advance_edges (s : State) : s.advance.edges = s.edges + 1 := rfl

@[simp] theorem State.drive_crc (s : State) (p : Pins) : (s.drive p).crc = s.crc := rfl
@[simp] theorem State.drive_matchFlag (s : State) (p : Pins) : (s.drive p).matchFlag = s.matchFlag := rfl
@[simp] theorem State.drive_fcrc (s : State) (p : Pins) : (s.drive p).fcrc = s.fcrc := rfl
@[simp] theorem State.drive_st (s : State) (p : Pins) : (s.drive p).st = s.st := rfl
@[simp] theorem State.drive_cnt (s : State) (p : Pins) : (s.drive p).cnt = s.cnt := rfl
@[simp] theorem State.drive_w (s : State) (p : Pins) : (s.drive p).w = s.w := rfl
@[simp] theorem State.drive_ok (s : State) (p : Pins) : (s.drive p).ok = s.ok := rfl
@[simp] theorem State.drive_err (s : State) (p : Pins) : (s.drive p).err = s.err := rfl
@[simp] theorem State.drive_egrp (s : State) (p : Pins) : (s.drive p).egrp = s.egrp := rfl
@[simp] theorem State.drive_fault (s : State) (p : Pins) : (s.drive p).fault = s.fault := rfl
@[simp] theorem State.drive_driven (s : State) (p : Pins) : (s.drive p).driven = p :: s.driven.tail := rfl
@[simp] theorem State.drive_edges (s : State) (p : Pins) : (s.drive p).edges = s.edges := rfl

@[simp] theorem State.openFrame_crc (s : State) : s.openFrame.crc = s.crc := rfl
@[simp] theorem State.openFrame_matchFlag (s : State) : s.openFrame.matchFlag = s.matchFlag := rfl
@[simp] theorem State.openFrame_fcrc (s : State) : s.openFrame.fcrc = 0xFF := rfl
@[simp] theorem State.openFrame_st (s : State) : s.openFrame.st = .recv := rfl
@[simp] theorem State.openFrame_cnt (s : State) : s.openFrame.cnt = 0 := rfl
@[simp] theorem State.openFrame_w (s : State) : s.openFrame.w = ⟨0x0000, 0x0000, 0x0000⟩ := rfl
@[simp] theorem State.openFrame_ok (s : State) : s.openFrame.ok = ⟨false, false, false⟩ := rfl
@[simp] theorem State.openFrame_err (s : State) : s.openFrame.err = .none := rfl
@[simp] theorem State.openFrame_egrp (s : State) : s.openFrame.egrp = 0 := rfl
@[simp] theorem State.openFrame_fault (s : State) : s.openFrame.fault = s.fault := rfl
@[simp] theorem State.openFrame_driven (s : State) : s.openFrame.driven = s.driven := rfl
@[simp] theorem State.openFrame_edges (s : State) : s.openFrame.edges = s.edges := rfl

@[simp] theorem State.clearFrameError_crc (s : State) : s.clearFrameError.crc = s.crc := rfl
@[simp] theorem State.clearFrameError_matchFlag (s : State) : s.clearFrameError.matchFlag = s.matchFlag := rfl
@[simp] theorem State.clearFrameError_fcrc (s : State) : s.clearFrameError.fcrc = s.fcrc := rfl
@[simp] theorem State.clearFrameError_st (s : State) : s.clearFrameError.st = s.st := rfl
@[simp] theorem State.clearFrameError_cnt (s : State) : s.clearFrameError.cnt = s.cnt := rfl
@[simp] theorem State.clearFrameError_w (s : State) : s.clearFrameError.w = s.w := rfl
@[simp] theorem State.clearFrameError_ok (s : State) : s.clearFrameError.ok = s.ok := rfl
@[simp] theorem State.clearFrameError_err (s : State) : s.clearFrameError.err = .none := rfl
@[simp] theorem State.clearFrameError_egrp (s : State) : s.clearFrameError.egrp = 0 := rfl
@[simp] theorem State.clearFrameError_fault (s : State) : s.clearFrameError.fault = s.fault := rfl
@[simp] theorem State.clearFrameError_driven (s : State) : s.clearFrameError.driven = s.driven := rfl
@[simp] theorem State.clearFrameError_edges (s : State) : s.clearFrameError.edges = s.edges := rfl

end Sys2Proof.Machine
end

