-- ==== Sys2Proof/Laws/Ops.lean ====
section
/-!
SUPPORT. What each shared operation can do, said once: access by group, the halves of a word, the position of a frame
byte, the lowest failing group, raising a condition, taking a frame byte and judging a frame. Provers cite these
instead of unfolding the operations.
-/

namespace Sys2Proof.Machine

/-! ### Access by group -/

@[simp] theorem PerGroup.get_set_self {α : Type} (t : PerGroup α) (g : Fin 3) (v : α) :
    (t.set g v).get g = v := by
  match g with
  | 0 => rfl
  | 1 => rfl
  | 2 => rfl

theorem PerGroup.get_set_of_ne {α : Type} (t : PerGroup α) {g h : Fin 3} (v : α) (ne : h ≠ g) :
    (t.set g v).get h = t.get h := by
  match g, h with
  | 0, 0 => exact absurd rfl ne
  | 0, 1 => rfl
  | 0, 2 => rfl
  | 1, 0 => rfl
  | 1, 1 => exact absurd rfl ne
  | 1, 2 => rfl
  | 2, 0 => rfl
  | 2, 1 => rfl
  | 2, 2 => exact absurd rfl ne

theorem PerGroup.ext_get {α : Type} {t u : PerGroup α} (h : ∀ g, t.get g = u.get g) : t = u := by
  obtain ⟨a, b, c⟩ := t
  obtain ⟨a', b', c'⟩ := u
  have h0 : a = a' := h 0
  have h1 : b = b' := h 1
  have h2 : c = c' := h 2
  rw [h0, h1, h2]

@[simp] theorem PerGroup.get_replicate {α : Type} (v : α) (g : Fin 3) : (PerGroup.mk v v v).get g = v := by
  match g with
  | 0 => rfl
  | 1 => rfl
  | 2 => rfl

/-! ### The halves of a word -/

theorem mkWord_bit (m l : Byte) (i : Nat) :
    (mkWord m l).getLsbD i = if i < 8 then l.getLsbD i else m.getLsbD (i - 8) := by
  have h : (mkWord m l).getLsbD i = (m ++ l : BitVec (8 + 8)).getLsbD i := rfl
  rw [h, BitVec.getLsbD_append]

@[simp] theorem hi_mkWord (m l : Byte) : hi (mkWord m l) = m := by
  apply BitVec.eq_of_getLsbD_eq
  intro i h
  simp [hi, mkWord_bit, h]

@[simp] theorem lo_mkWord (m l : Byte) : lo (mkWord m l) = l := by
  apply BitVec.eq_of_getLsbD_eq
  intro i h
  simp [lo, mkWord_bit, h]

@[simp] theorem mkWord_hi_lo (w : Word) : mkWord (hi w) (lo w) = w := by
  apply BitVec.eq_of_getLsbD_eq
  intro i h
  rw [mkWord_bit]
  split
  · next h8 => simp [lo, h8]
  · next h8 =>
    have e : 8 + (i - 8) = i := by omega
    have h' : i - 8 < 8 := by omega
    simp [hi, e, h']

@[simp] theorem hi_setHi (w : Word) (b : Byte) : hi (setHi w b) = b := by simp [setHi]
@[simp] theorem lo_setHi (w : Word) (b : Byte) : lo (setHi w b) = lo w := by simp [setHi]
@[simp] theorem hi_setLo (w : Word) (b : Byte) : hi (setLo w b) = hi w := by simp [setLo]
@[simp] theorem lo_setLo (w : Word) (b : Byte) : lo (setLo w b) = b := by simp [setLo]

/-! ### The position of a frame byte -/

theorem slotOf_eq_none {c : Fin 11} : slotOf c = none ↔ 9 ≤ c.val := by
  unfold slotOf
  split
  · next h => simp only [reduceCtorEq, false_iff]; omega
  · next h => simp only [true_iff]; omega

theorem slotOf_msb {c : Fin 11} {g : Fin 3} (h : c.val = 3 * g.val) : slotOf c = some ⟨g, .msb⟩ := by
  obtain ⟨g, hg⟩ := g
  have hc : c.val < 9 := by simp only at h; omega
  have hd : c.val / 3 = g := by simp only at h; omega
  have hm : c.val % 3 = 0 := by simp only at h; omega
  simp [slotOf, hc, hd, hm, roleOf]

theorem slotOf_lsb {c : Fin 11} {g : Fin 3} (h : c.val = 3 * g.val + 1) : slotOf c = some ⟨g, .lsb⟩ := by
  obtain ⟨g, hg⟩ := g
  have hc : c.val < 9 := by simp only at h; omega
  have hd : c.val / 3 = g := by simp only at h; omega
  have hm : c.val % 3 = 1 := by simp only at h; omega
  simp [slotOf, hc, hd, hm, roleOf]

theorem slotOf_crc {c : Fin 11} {g : Fin 3} (h : c.val = 3 * g.val + 2) : slotOf c = some ⟨g, .crc⟩ := by
  obtain ⟨g, hg⟩ := g
  have hc : c.val < 9 := by simp only at h; omega
  have hd : c.val / 3 = g := by simp only at h; omega
  have hm : c.val % 3 = 2 := by simp only at h; omega
  simp [slotOf, hc, hd, hm, roleOf]

@[simp] theorem nextCnt_val (c : Fin 11) : (nextCnt c).val = min (c.val + 1) 10 := rfl

/-! ### The lowest failing group -/

theorem lowestFailing_eq_none {ok : PerGroup Bool} : lowestFailing ok = none ↔ ∀ g, ok.get g = true := by
  obtain ⟨a, b, c⟩ := ok
  revert a b c
  decide

theorem lowestFailing_eq_some {ok : PerGroup Bool} {g : Fin 3} :
    lowestFailing ok = some g ↔ ok.get g = false ∧ ∀ h, h < g → ok.get h = true := by
  obtain ⟨a, b, c⟩ := ok
  revert a b c g
  decide

/-! ### Raising a condition, taking a byte, judging a frame -/

/-- Everything `raise` can do: a frame error is in ERR and EGRP, a port fault in its own bit of FAULT. -/
theorem State.raise_cases (s : State) (c : Condition) :
    (∃ g, c = .checksumMismatch g ∧ s.raise c = s.setErr .checksumMismatch g)
    ∨ (c = .malformedResponse ∧ s.raise c = s.setErr .malformedResponse 0)
    ∨ (c = .illegalOp ∧ s.raise c = s.setFault (withIll s.fault))
    ∨ (c = .sequenceFault ∧ s.raise c = s.setFault (withSeq s.fault)) := by
  cases c with
  | checksumMismatch g => exact .inl ⟨g, rfl, rfl⟩
  | malformedResponse => exact .inr (.inl ⟨rfl, rfl⟩)
  | illegalOp => exact .inr (.inr (.inl ⟨rfl, rfl⟩))
  | sequenceFault => exact .inr (.inr (.inr ⟨rfl, rfl⟩))

@[simp] theorem State.raise_illegalOp (s : State) : s.raise .illegalOp = s.setFault (withIll s.fault) := rfl
@[simp] theorem State.raise_sequenceFault (s : State) : s.raise .sequenceFault = s.setFault (withSeq s.fault) := rfl

theorem withIll_bits : ∀ f : BitVec 2,
    (withIll f).getLsbD 0 = true ∧ (withIll f).getLsbD 1 = f.getLsbD 1 ∧ withIll (withIll f) = withIll f := by decide

theorem withSeq_bits : ∀ f : BitVec 2,
    (withSeq f).getLsbD 1 = true ∧ (withSeq f).getLsbD 0 = f.getLsbD 0 ∧ withSeq (withSeq f) = withSeq f := by decide

/-- Everything taking a byte can do, by its role in the group. -/
theorem State.takeByte_cases (s : State) (p : Slot) (d : Byte) :
    (p.role = .msb ∧ s.takeByte p d
      = (s.setW (s.w.set p.group (setHi (s.w.get p.group) d))).setFcrc (crcByte 0xFF d))
    ∨ (p.role = .lsb ∧ s.takeByte p d
      = (s.setW (s.w.set p.group (setLo (s.w.get p.group) d))).setFcrc (crcByte s.fcrc d))
    ∨ (p.role = .crc ∧ s.takeByte p d = s.setOk (s.ok.set p.group (s.fcrc == d))) := by
  obtain ⟨g, r⟩ := p
  cases r with
  | msb => exact .inl ⟨rfl, rfl⟩
  | lsb => exact .inr (.inl ⟨rfl, rfl⟩)
  | crc => exact .inr (.inr ⟨rfl, rfl⟩)

/-- Everything the verdict on a frame can be. -/
theorem State.judgeFrame_cases (s : State) :
    (s.cnt ≠ 9 ∧ s.judgeFrame = s.setErr .malformedResponse 0)
    ∨ (∃ g, s.cnt = 9 ∧ s.ok.get g = false ∧ (∀ h, h < g → s.ok.get h = true)
        ∧ s.judgeFrame = s.setErr .checksumMismatch g)
    ∨ (s.cnt = 9 ∧ (∀ g, s.ok.get g = true) ∧ s.judgeFrame = s.setErr .none 0) := by
  unfold State.judgeFrame
  split
  · next h9 =>
    split
    · next g hg => exact .inr (.inl ⟨g, h9, (lowestFailing_eq_some.mp hg).1, (lowestFailing_eq_some.mp hg).2, rfl⟩)
    · next hn => exact .inr (.inr ⟨h9, lowestFailing_eq_none.mp hn, rfl⟩)
  · next h9 => exact .inl ⟨h9, rfl⟩

/-! ### Sampling the input ports -/

theorem State.sample_of_driven {s : State} {p : Pins} {rest : List Pins} (h : s.driven = p :: rest) :
    s.sample = p := by
  simp [State.sample, h]

@[simp] theorem State.sample_drive (s : State) (p : Pins) : (s.drive p).sample = p := rfl

end Sys2Proof.Machine
end

