-- ==== Sys2Proof/Laws/PerInstr.lean ====
section
/-!
SUPPORT. Statements made for each operation as syntax. EncodesToItsRow: the canonical word of the operation selects a
row of R48's map, and that row is the operation's own.
-/

namespace Sys2Proof.Laws.EncodesToItsRow

/-- The canonical word of `i` selects the row of R48's map whose operation code is that of `i`. -/
def Statement (i : Instr) : Prop :=
  ∃ r ∈ opcodeRows, r.selects (encode i) = true ∧ r.sample.opcode = i.opcode

theorem nop : Statement .nop := ⟨⟨0x000, 0x700, .nop⟩, by decide, by decide, rfl⟩

theorem crcinit : Statement .crcinit := ⟨⟨0x100, 0x700, .crcinit⟩, by decide, by decide, rfl⟩

theorem crcbyte (d : Byte) : Statement (.crcbyte d) :=
  ⟨⟨0x200, 0x700, .crcbyte 0x00⟩, by decide, by revert d; decide, rfl⟩

theorem crcchk (e : Byte) : Statement (.crcchk e) :=
  ⟨⟨0x300, 0x700, .crcchk 0x00⟩, by decide, by revert e; decide, rfl⟩

theorem fstart : Statement .fstart := ⟨⟨0x400, 0x700, .fstart⟩, by decide, by decide, rfl⟩

theorem fbyte (d : Byte) : Statement (.fbyte d) :=
  ⟨⟨0x500, 0x700, .fbyte 0x00⟩, by decide, by revert d; decide, rfl⟩

theorem fend : Statement .fend := ⟨⟨0x600, 0x700, .fend⟩, by decide, by decide, rfl⟩

theorem rsv7 : Statement .rsv7 := ⟨⟨0x700, 0x700, .rsv7⟩, by decide, by decide, rfl⟩

end Sys2Proof.Laws.EncodesToItsRow
end

