-- ==== Sys2Proof/Laws/Step.lean ====
section
/-!
SUPPORT. What an operation and a step can do, said once, and how runs are cut into parts.
-/

namespace Sys2Proof.Machine

/-- Every operation answers a next state, and leaves the model's own fields alone. -/
theorem exec_answers_next (i : Instr) (s : State) :
    ∃ t, exec i s = .next t ∧ t.driven = s.driven ∧ t.edges = s.edges := by
  cases i with
  | nop => exact ⟨_, rfl, rfl, rfl⟩
  | crcinit => exact ⟨_, rfl, rfl, rfl⟩
  | crcbyte d => exact ⟨_, rfl, rfl, rfl⟩
  | crcchk e => exact ⟨_, rfl, rfl, rfl⟩
  | fstart => exact ⟨_, rfl, rfl, rfl⟩
  | rsv7 => exact ⟨_, rfl, rfl, rfl⟩
  | fbyte d =>
    simp only [exec, execFbyte]
    split
    · split
      · exact ⟨_, rfl, rfl, rfl⟩
      · next p _ =>
        rcases s.takeByte_cases p d with ⟨-, h⟩ | ⟨-, h⟩ | ⟨-, h⟩ <;> exact ⟨_, rfl, by simp [h], by simp [h]⟩
    · exact ⟨_, rfl, rfl, rfl⟩
  | fend =>
    simp only [exec, execFend]
    split
    · rcases (s.setSt .done).judgeFrame_cases with ⟨-, h⟩ | ⟨g, -, -, -, h⟩ | ⟨-, -, h⟩ <;>
        exact ⟨_, rfl, by simp [h], by simp [h]⟩
    · exact ⟨_, rfl, rfl, rfl⟩

/-- A step is the reset step or the sampled operation, once the pin sample is used up. -/
theorem step_cases (s : State) :
    (s.sample.rst = true ∧ step s = .next s.advance.resetRegs)
    ∨ (s.sample.rst = false ∧ step s = exec s.sample.instr s.advance) := by
  unfold step
  cases h : s.sample.rst with
  | false => exact .inr ⟨rfl, rfl⟩
  | true => exact .inl ⟨rfl, rfl⟩

/-! ### Runs -/

@[simp] theorem runEdges_zero (s : State) : runEdges 0 s = .next s := rfl

/-- A run begins with its first step. -/
theorem runEdges_succ_of_step {s t : State} (n : Nat) (h : step s = .next t) :
    runEdges (n + 1) s = runEdges n t := by
  show Host.Core.run Sys2Proof.core (n + 1) s = _
  have h' : Sys2Proof.core.step s = .next t := h
  simp only [Host.Core.run, h']
  rfl

/-- A run is cut into two at any point. -/
theorem runEdges_add_of_run {s t : State} {m : Nat} (n : Nat) (h : runEdges m s = .next t) :
    runEdges (m + n) s = runEdges n t := by
  induction m generalizing s with
  | zero =>
    cases h
    rw [Nat.zero_add]
  | succ m ih =>
    have hs : ∃ u, step s = .next u := by
      rcases step_cases s with ⟨-, h⟩ | ⟨-, h⟩
      · exact ⟨_, h⟩
      · obtain ⟨u, hu, -⟩ := exec_answers_next s.sample.instr s.advance
        exact ⟨u, h.trans hu⟩
    obtain ⟨u, hu⟩ := hs
    rw [runEdges_succ_of_step m hu] at h
    rw [Nat.succ_add_eq_add_succ, Nat.add_succ, runEdges_succ_of_step (m + n) hu]
    exact ih h

end Sys2Proof.Machine
end

