-- ==== Sys2Proof/Tests/Slice0.lean ====
section
/-!
SUPPORT. Tests. Expected values are the spec's own: 95_test_vectors.md and the examples of the rules named; words are
written out bit by bit from 30_encoding.md R48. Then, for every statement with hypotheses, a witness: a concrete
state and operands that meet them.
-/

namespace Sys2Proof.Tests

open Sys2Proof Sys2Proof.Machine

/-- The state an outcome answers, for looking at its fields. -/
def stateOf : Host.Outcome State Fault Refusal → Option State
  | .next s => some s
  | .fault _ => none
  | .refused _ => none

/-- A state of an open frame: `n` bytes taken, the rest as after FSTART. -/
def openAt (n : Fin 11) : State := { State.reset with st := .recv, cnt := n }

/-- 95_test_vectors.md P2 after 5D4: one group taken and verified. -/
def oneGroup : State :=
  { openAt 3 with fcrc := 0xD4, w := ⟨0x03E8, 0x0000, 0x0000⟩, ok := ⟨true, false, false⟩ }

/-- P2 after 5C7: nine bytes taken, all groups verified. -/
def nineGood : State :=
  { openAt 9 with fcrc := 0xC7, w := ⟨0x03E8, 0x6667, 0x5E95⟩, ok := ⟨true, true, true⟩ }

/-- P2 at its end: a frame that verified. -/
def doneGood : State := { nineGood with st := .done }

/-- P3 at its end: ChecksumMismatch(1). -/
def doneMismatch : State :=
  { nineGood with st := .done, w := ⟨0x03E8, 0x6666, 0x5E95⟩, ok := ⟨true, false, true⟩, err := .checksumMismatch, egrp := 1 }

/-- P4 at its end: MalformedResponse. -/
def doneShort : State :=
  { nineGood with st := .done, cnt := 8, ok := ⟨true, true, false⟩, err := .malformedResponse }

/-- `s` with these pin samples decided by the host. -/
def driving (s : State) (ps : List Pins) : State := { s with driven := ps }

/-! ### Well-formedness -/

theorem test_word_0x800_is_ill_formed : wordWf 0x800 = false := by decide
theorem test_word_0x7FF_is_well_formed : wordWf 0x7FF = true := by decide
theorem test_word_0x1A5_is_not_canonical : wordCanonical 0x1A5 = false := by decide
theorem test_word_0x5A5_is_canonical : wordCanonical 0x5A5 = true := by decide
theorem test_verify_of_no_bytes_is_ill_formed : (Pseudo.verify [] 0xFF).wf = false := by decide
theorem test_frame_of_no_bytes_is_well_formed : (Pseudo.frame []).wf = true := by decide

/-! ### Decoding: words written out from R48 -/

theorem test_decode_nop_any_data : decode 0b00010100101#11 = .nop := by decide
theorem test_decode_crcinit_any_data : decode 0b00110100101#11 = .crcinit := by decide
theorem test_decode_crcbyte : decode 0b01010111110#11 = .crcbyte 0xBE := by decide
theorem test_decode_crcchk : decode 0b01110010010#11 = .crcchk 0x92 := by decide
theorem test_decode_fstart : decode 0b10000000000#11 = .fstart := by decide
theorem test_decode_fbyte : decode 0b10111101000#11 = .fbyte 0xE8 := by decide
theorem test_decode_fend : decode 0b11000000000#11 = .fend := by decide
theorem test_decode_rsv7 : decode 0b11110101011#11 = .rsv7 := by decide
theorem test_encode_fbyte : encode (.fbyte 0x03) = 0x503#11 := by decide
theorem test_number_0x800_is_rejected : decodeTableWord 16 0x800 = none := by decide

/-! ### Assembler (R55) -/

theorem test_print_crcbyte :
    printLine (.op (.crcbyte 0xBE)) = ['C', 'R', 'C', 'B', 'Y', 'T', 'E', ' ', '0', 'x', 'B', 'E'] := by decide
theorem test_parse_comment_line : parseLine [' ', ';', ' ', 'x'] = .ok none := by rfl
theorem test_parse_rejects_operand_of_nop : parseLine ['N', 'O', 'P', ' ', '0', 'x', '0', '0'] = .error .unknownLine := by rfl
theorem test_parse_rejects_short_operand : parseLine ['F', 'B', 'Y', 'T', 'E', ' ', '0', 'x', '3'] = .error .badOperand := by rfl

/-! ### The checksum (95_test_vectors.md sections 2.2 to 2.5) -/

theorem test_bit_step_0x98 : crcBit 0x98 = 0x01 := by decide
theorem test_bit_step_0xFF : crcBit 0xFF = 0xCF := by decide
theorem test_byte_step_FF_BE : crcByte 0xFF 0xBE = 0x0C := by decide
theorem test_byte_step_0C_EF : crcByte 0x0C 0xEF = 0x92 := by decide
theorem test_byte_order_matters : crcByte 0x9D 0x00 = 0x75 ∧ crcByte 0xAC 0x01 = 0xB0 := by decide
theorem test_document_literal_is_not_the_checksum : crcByte 0xCF 0x08 = 0xD0 := by decide

/-! ### The operations (95_test_vectors.md section 2.6) -/

theorem test_nop : stateOf (exec .nop oneGroup) = some oneGroup := by decide

theorem test_crcinit : (stateOf (exec .crcinit { State.reset with crc := 0x92, matchFlag := true })).map
    (fun t => (t.crc, t.matchFlag)) = some (0xFF, false) := by decide

theorem test_crcbyte : (stateOf (exec (.crcbyte 0xBE) State.reset)).map (·.crc) = some 0x0C := by decide

theorem test_crcbyte_clears_match : (stateOf (exec (.crcbyte 0x00) { State.reset with crc := 0x92, matchFlag := true })).map
    (fun t => (t.crc, t.matchFlag)) = some (0x5B, false) := by decide

theorem test_crcchk_hit : (stateOf (exec (.crcchk 0x92) { State.reset with crc := 0x92 })).map
    (fun t => (t.crc, t.matchFlag)) = some (0x92, true) := by decide

theorem test_crcchk_miss : (stateOf (exec (.crcchk 0x93) { State.reset with crc := 0x92, matchFlag := true })).map
    (fun t => (t.crc, t.matchFlag)) = some (0x92, false) := by decide

theorem test_fstart_forgets_the_error : (stateOf (exec .fstart doneMismatch)).map (fun t => (t.st, t.w, t.err))
    = some (.recv, ⟨0, 0, 0⟩, .none) := by decide

theorem test_fbyte_first_of_group : (stateOf (exec (.fbyte 0x66) oneGroup)).map (fun t => (t.w.g1, t.fcrc, t.cnt))
    = some (0x6600, 0xB1, 4) := by decide

theorem test_fbyte_third_of_group_mismatch :
    (stateOf (exec (.fbyte 0xA3) { openAt 5 with fcrc := 0xA2, ok := ⟨true, false, false⟩ })).map
      (fun t => (t.ok, t.cnt, t.fcrc)) = some (⟨true, false, false⟩, 6, 0xA2) := by decide

theorem test_fend_good : (stateOf (exec .fend nineGood)).map (fun t => (t.st, t.err, t.egrp))
    = some (.done, .none, 0) := by decide

theorem test_fend_lowest_of_two_bad : (stateOf (exec .fend { nineGood with ok := ⟨false, true, false⟩ })).map
    (fun t => (t.err, t.egrp)) = some (.checksumMismatch, 0) := by decide

theorem test_rsv7_with_seq_set : (stateOf (exec .rsv7 { doneGood with fault := 2 })).map (fun t => (t.fault, t.outputs.validO))
    = some (3, true) := by decide

/-! ### The step, reset and the ports -/

theorem test_reset_step_ignores_op_7 : (stateOf (step (driving doneGood [⟨true, 7, 0x00⟩]))).map
    (fun t => (t.fault, t.fcrc, t.st)) = some (0, 0xFF, .idle) := by decide

theorem test_placed_word_runs : (stateOf (step (State.reset.withFetchWord 16 0x503))).map (·.fault) = some 2 := by decide

theorem test_ports_of_a_good_frame : doneGood.outputs.frame = ⟨true, true, 0, 0, 0x03E8, 0x6667, 0x5E95⟩ := by decide

theorem test_ports_of_a_bad_frame : doneMismatch.outputs.frame = ⟨true, false, 1, 1, 0, 0, 0⟩ := by decide

theorem test_err_code_3_is_never_seen : errOfCode 3 = none ∧ groupOfCode 3 = none := by decide

/-! ### The environment (43_environment.md) -/

theorem test_read_command_frame : Env.Command.readMeasurement.bytes = [0xC4, 0xEC, 0x05] := by decide

theorem test_read_before_settling_departs_from_the_contract :
    Env.Session.next (.measuringStarted false) (.send .readMeasurement) = none := by decide

theorem test_exact_temperature : Env.tempExact 0x6667 = 327710 / 13107 := by
  have h : BitVec.toNat (0x6667 : Word) = 26215 := by decide
  unfold Env.tempExact
  rw [h]
  norm_num

/-! ### Witnesses: the hypotheses of every statement can be met -/

/-- ResetStepGivesTheResetValues, both clauses. -/
theorem witness_reset_step :
    (driving doneGood [⟨true, 7, 0xAB⟩, ⟨true, 5, 0x01⟩, ⟨false, 5, 0x03⟩]).driven
      = ⟨true, 7, 0xAB⟩ :: [⟨true, 5, 0x01⟩] ++ [⟨false, 5, 0x03⟩]
    ∧ (∀ q ∈ [Pins.mk true 5 0x01], q.rst = true)
    ∧ (driving doneGood [⟨false, 5, 0x03⟩]).driven = ⟨false, 5, 0x03⟩ :: [] := by decide

/-- StepRunsTheSampledOperation, a reset step and each operation code. -/
theorem witness_step :
    (driving oneGroup [⟨true, 0, 0⟩]).driven = ⟨true, 0, 0⟩ :: []
    ∧ ∀ op : BitVec 3, (driving oneGroup [⟨false, op, 0xFF⟩]).driven = ⟨false, op, 0xFF⟩ :: [] :=
  ⟨rfl, fun _ => rfl⟩

/-- PlacedWordIsTheOperationStepped, at both ends of the words. -/
theorem witness_placed_word :
    decodeTableWord 16 0x000 = some .nop ∧ decodeTableWord 16 0x503 = some (.fbyte 0x03)
    ∧ decodeTableWord 16 0x7FF = some .rsv7 := by decide

/-- UndecidedPinsAreAFreeSample. -/
theorem witness_undecided : State.reset.driven = [] := rfl

/-- DecodeAndEncodeAgree. -/
theorem witness_decode_encode : (Instr.crcbyte 0xFF).wf = true ∧ wordCanonical 0x5FF = true ∧ wordCanonical 0x600 = true
    ∧ opOf 0x5FF = 5 ∧ dataOf 0x5FF = 0xFF := by decide

/-- FormatNIgnoresItsDataBits, each operation code. -/
theorem witness_format_n : ∀ op ∈ [0#3, 1#3, 4#3, 6#3, 7#3], op = 0 ∨ op = 1 ∨ op = 4 ∨ op = 6 ∨ op = 7 := by decide

/-- BitStepShiftsAndXorsThePolynomial, both cases at their boundary. -/
theorem witness_bit_step : (0x80#8).getLsbD 7 = true ∧ (0x7F#8).getLsbD 7 = false := by decide

/-- OneByteCorruptionIsDetected: the fixture's first group, each byte. -/
theorem witness_corruption : Group.valid ⟨0x03, 0xE8, 0xD4⟩ = true ∧ (0x02#8 ≠ 0x03) ∧ (0xE9#8 ≠ 0xE8)
    ∧ (0xD5#8 ≠ 0xD4) := by decide +kernel

/-- ParseFrameFollowsTheDocument: a wrong length, the lowest failing group at each index, all groups good. -/
theorem witness_parse_frame :
    [0x03#8, 0xE8, 0xD4].length ≠ 9
    ∧ [0x03#8, 0xE8, 0xD4, 0x66, 0x67, 0xA2, 0x5E, 0x95, 0xC7].length = 9
    ∧ crc8 0x02 [0xE8] ≠ 0xD4
    ∧ (crc8 0x03 [0xE8] = 0xD4 ∧ crc8 0x66 [0x66] ≠ 0xA2)
    ∧ (crc8 0x66 [0x67] = 0xA2 ∧ crc8 0x5E [0x94] ≠ 0xC7)
    ∧ crc8 0x5E [0x95] = 0xC7 := by decide +kernel

/-- OneCorruptedByteRejectsTheFrame: the fixture, its first and its last byte. -/
theorem witness_corrupted_frame :
    parseFrame [0x03, 0xE8, 0xD4, 0x66, 0x67, 0xA2, 0x5E, 0x95, 0xC7] = .words 0x03E8 0x6667 0x5E95
    ∧ 0x02#8 ≠ [0x03#8, 0xE8, 0xD4, 0x66, 0x67, 0xA2, 0x5E, 0x95, 0xC7].getD (3 * (0 : Fin 3).val + 0) 0
    ∧ 0xC6#8 ≠ [0x03#8, 0xE8, 0xD4, 0x66, 0x67, 0xA2, 0x5E, 0x95, 0xC7].getD (3 * (2 : Fin 3).val + 2) 0 := by
  decide +kernel

/-- CrcchkComparesTheChecksum, hit and miss. -/
theorem witness_crcchk : State.reset.crc = 0xFF ∧ State.reset.crc ≠ 0x00 := by decide

/-- FbyteTakesTheNextFrameByte: outside RECV, past the frame, and each byte of the first and the last group. -/
theorem witness_fbyte :
    State.reset.st ≠ .recv ∧ doneGood.st ≠ .recv
    ∧ (∀ n : Fin 11, (openAt n).st = .recv)
    ∧ 9 ≤ (openAt 9).cnt.val ∧ 9 ≤ (openAt 10).cnt.val
    ∧ (openAt 0).cnt.val = 3 * (0 : Fin 3).val ∧ (openAt 6).cnt.val = 3 * (2 : Fin 3).val
    ∧ (openAt 1).cnt.val = 3 * (0 : Fin 3).val + 1 ∧ (openAt 7).cnt.val = 3 * (2 : Fin 3).val + 1
    ∧ (openAt 2).cnt.val = 3 * (0 : Fin 3).val + 2 ∧ (openAt 8).cnt.val = 3 * (2 : Fin 3).val + 2 := by decide

/-- FendClosesAndJudgesTheFrame: outside RECV, too short, too long, the first and the last group failing, a good one. -/
theorem witness_fend :
    doneGood.st ≠ .recv ∧ nineGood.st = .recv ∧ (openAt 8).cnt.val ≠ 9 ∧ (openAt 10).cnt.val ≠ 9 ∧ nineGood.cnt.val = 9
    ∧ (⟨false, true, true⟩ : PerGroup Bool).get 0 = false
    ∧ ((⟨true, true, false⟩ : PerGroup Bool).get 2 = false
        ∧ ∀ h : Fin 3, h < 2 → (⟨true, true, false⟩ : PerGroup Bool).get h = true)
    ∧ ∀ g : Fin 3, nineGood.ok.get g = true := by decide

/-- EachRegisterHasOnlyItsWriters: NOP meets every premise. -/
theorem witness_writers :
    exec .nop oneGroup = .next oneGroup ∧ Instr.nop ≠ .crcinit ∧ Instr.nop ≠ .fstart ∧ Instr.nop ≠ .rsv7
    ∧ (∀ d, Instr.nop ≠ .crcbyte d) ∧ (∀ d, Instr.nop ≠ .fbyte d) ∧ (∀ e, Instr.nop ≠ .crcchk e)
    ∧ ¬(Instr.nop = .fend ∧ oneGroup.st = .recv)
    ∧ ¬(((∃ d, Instr.nop = .fbyte d) ∨ Instr.nop = .fend) ∧ oneGroup.st ≠ .recv) := by
  refine ⟨rfl, by decide, by decide, by decide, ?_, ?_, ?_, by decide, by decide⟩ <;> intro d <;> simp

/-- FrameAndGenericStateAreIsolated: states that differ in the other half only. -/
theorem witness_isolation :
    exec .nop oneGroup = .next oneGroup ∧ exec .nop { oneGroup with crc := 0x00 } = .next { oneGroup with crc := 0x00 }
    ∧ oneGroup.SameFrame { oneGroup with crc := 0x00 } ∧ oneGroup.SameGeneric { oneGroup with cnt := 4 } :=
  ⟨rfl, rfl, by decide, by decide⟩

/-- FrameStateMovesAsTabulated: each case of its clauses. -/
theorem witness_frame_state :
    (driving doneGood [⟨true, 0, 0⟩]).sample.rst = true
    ∧ step (driving doneGood [⟨true, 0, 0⟩]) = .next { State.reset with edges := 1 }
    ∧ (driving State.reset [⟨false, 4, 0⟩]).sample.instr = .fstart
    ∧ step (driving State.reset [⟨false, 4, 0⟩]) = .next { State.reset with st := .recv, edges := 1 }
    ∧ (driving nineGood [⟨false, 6, 0⟩]).sample.instr = .fend
    ∧ (driving doneGood [⟨false, 5, 0x5A⟩]).sample.instr = .fbyte 0x5A ∧ doneGood.st ≠ .recv
    ∧ step (driving doneGood [⟨false, 5, 0x5A⟩]) = .next { doneGood with fault := 2, edges := 1 } :=
  ⟨rfl, rfl, rfl, rfl, rfl, rfl, by decide, rfl⟩

/-- PortFaultsAreRecordedAndSticky: a reset step, code 7, FBYTE and FEND outside RECV. -/
theorem witness_port_faults :
    (driving doneGood [⟨false, 7, 0⟩]).driven = ⟨false, 7, 0⟩ :: []
    ∧ (driving doneGood [⟨false, 5, 0⟩]).driven = ⟨false, 5, 0⟩ :: []
    ∧ (driving State.reset [⟨false, 6, 0⟩]).driven = ⟨false, 6, 0⟩ :: []
    ∧ (driving State.reset [⟨true, 6, 0⟩]).driven = ⟨true, 6, 0⟩ :: []
    ∧ doneGood.st ≠ .recv ∧ State.reset.st ≠ .recv := by decide

/-- FaultFreeExactlyInContract. -/
theorem witness_clean : State.reset.Clean ∧ nineGood.Clean := by decide

/-- FrameErrorStandsUntilCleared: both frame errors; a clearing and a leaving step. -/
theorem witness_frame_error :
    doneMismatch.Inv ∧ doneMismatch.err ≠ .none ∧ doneShort.Inv ∧ doneShort.err ≠ .none
    ∧ (driving doneShort [⟨false, 4, 0⟩]).sample.instr = .fstart
    ∧ (driving doneShort [⟨false, 6, 0⟩]).sample.rst = false
    ∧ (driving doneShort [⟨false, 6, 0⟩]).sample.instr ≠ .fstart
    ∧ (driving doneShort [⟨true, 6, 0⟩]).sample.rst = true :=
  ⟨by decide, by decide, by decide, by decide, by decide, by decide, by decide, by decide⟩

/-- PortsShowTheStandingResult: an open frame, a good one, a short one, a mismatch. -/
theorem witness_ports :
    nineGood.Inv ∧ nineGood.st ≠ .done ∧ doneGood.Inv ∧ doneGood.st = .done ∧ doneGood.outputs.validO = true
    ∧ doneShort.Inv ∧ doneShort.st = .done ∧ doneShort.cnt.val ≠ 9
    ∧ doneMismatch.Inv ∧ doneMismatch.st = .done ∧ doneMismatch.cnt.val = 9 ∧ doneMismatch.ok.get 1 = false
    ∧ ∀ h : Fin 3, h < 1 → doneMismatch.ok.get h = true :=
  ⟨by decide, by decide, by decide, by decide, by decide, by decide, by decide, by decide, by decide, by decide,
    by decide, by decide, by decide⟩

/-- RepeatedOperationsAreIdempotent: its second clause, at both ends. -/
theorem witness_repeated : (openAt 0).st = .recv ∧ (openAt 0).cnt.val < 9 ∧ (openAt 8).st = .recv
    ∧ (openAt 8).cnt.val < 9 := by decide

/-- InvariantKeptByEveryStep. -/
theorem witness_invariant_kept :
    nineGood.Inv ∧ step (driving nineGood [⟨false, 6, 0⟩]) = .next { doneGood with edges := 1 } :=
  ⟨by decide, rfl⟩

/-- StatesReachedFromResetMeetTheInvariants: a CRCCHK of 0xFF after reset sets MATCH, then an RSV7 follows. -/
theorem witness_reached :
    (driving doneGood [⟨true, 0, 0⟩, ⟨false, 3, 0xFF⟩, ⟨false, 7, 0⟩]).driven
      = ⟨true, 0, 0⟩ :: [⟨false, 3, 0xFF⟩, ⟨false, 7, 0⟩] ++ []
    ∧ (⟨true, 0, 0⟩ : Pins) :: [⟨false, 3, 0xFF⟩, ⟨false, 7, 0⟩] = [⟨true, 0, 0⟩] ++ [⟨false, 3, 0xFF⟩, ⟨false, 7, 0⟩]
    ∧ (stateOf (runEdges 3 (driving doneGood [⟨true, 0, 0⟩, ⟨false, 3, 0xFF⟩, ⟨false, 7, 0⟩]))).map (·.matchFlag)
      = some true
    ∧ (∀ r ∈ [Pins.mk false 3 0xFF, ⟨false, 7, 0⟩], r.rst = false) := by decide

/-- GenericRunComputesTheChecksum: P1 with a NOP among the bytes and an FSTART before the CRCCHK; and no bytes. -/
theorem witness_generic_run :
    (driving doneGood ([.crcinit, .crcbyte 0xBE, .nop, .crcbyte 0xEF, .fstart, .crcchk 0x92].map Instr.pins)).driven
      = Instr.crcinit.pins :: ([.crcbyte 0xBE, .nop, .crcbyte 0xEF].map Instr.pins)
        ++ ([Instr.fstart.pins] ++ (Instr.crcchk 0x92).pins :: [])
    ∧ Instr.crcinit.pins.instr = .crcinit
    ∧ (∀ q ∈ ([.crcbyte 0xBE, .nop, .crcbyte 0xEF] : List Instr).map Instr.pins, q.rst = false)
    ∧ ((([.crcbyte 0xBE, .nop, .crcbyte 0xEF] : List Instr).map Instr.pins).map Pins.instr).filter Instr.writesCrc
      = [0xBE, 0xEF].map Instr.crcbyte
    ∧ (([] : List Pins).map Pins.instr).filter Instr.writesCrc = ([] : List Byte).map Instr.crcbyte
    ∧ Instr.fstart.pins.rst = false ∧ Instr.fstart.pins.instr.writesMatch = false
    ∧ (Instr.crcchk 0x92).pins.rst = false ∧ (Instr.crcchk 0x92).pins.instr = .crcchk 0x92 := by decide

/-- FrameRunShowsParseFrame: an interrupted group with a CRCINIT in it, closed and open, and the empty frame. -/
theorem witness_frame_run :
    (driving doneGood (([.fstart, .fbyte 0x03, .crcinit, .fbyte 0xE8, .fend] : List Instr).map Instr.pins)).driven
      = ([.fstart, .fbyte 0x03, .crcinit, .fbyte 0xE8, .fend] : List Instr).map Instr.pins ++ []
    ∧ (∀ q ∈ ([.fstart, .fbyte 0x03, .crcinit, .fbyte 0xE8, .fend] : List Instr).map Instr.pins, q.rst = false)
    ∧ ((([.fstart, .fbyte 0x03, .crcinit, .fbyte 0xE8, .fend] : List Instr).map Instr.pins).map Pins.instr).filter
        Instr.isFrameOp = .fstart :: ([0x03, 0xE8].map Instr.fbyte ++ [.fend])
    ∧ ((([.fstart, .fbyte 0x03, .crcinit, .fbyte 0xE8] : List Instr).map Instr.pins).map Pins.instr).filter
        Instr.isFrameOp = .fstart :: [0x03, 0xE8].map Instr.fbyte
    ∧ ((([.fstart, .fend] : List Instr).map Instr.pins).map Pins.instr).filter Instr.isFrameOp
      = .fstart :: (([] : List Byte).map Instr.fbyte ++ [.fend]) := by decide

/-- PseudoInstructionsComputeTheDocument. -/
theorem witness_pseudo (b e : Byte) (bs : List Byte) (rest : List Pins) :
    (driving doneGood ((Pseudo.verify (b :: bs) e).expand.map Instr.pins ++ rest)).driven
      = (Pseudo.verify (b :: bs) e).expand.map Instr.pins ++ rest
    ∧ (driving doneGood ((Pseudo.frame bs).expand.map Instr.pins ++ rest)).driven
      = (Pseudo.frame bs).expand.map Instr.pins ++ rest := ⟨rfl, rfl⟩

/-- ConversionsHaveTheExactValues, the increasing clause. -/
theorem witness_conversion : (0#16) < 65535#16 := by decide

/-- TransactionMeasuresTheSensorsWords, both clauses. -/
theorem witness_transaction :
    (driving doneGood (Env.transactionPins [0x03, 0xE8, 0xD4, 0x66, 0x67, 0xA2, 0x5E, 0x95, 0xC7])).driven
      = Env.transactionPins [hi 0x03E8, lo 0x03E8, 0xD4, hi 0x6667, lo 0x6667, 0xA2, hi 0x5E95, lo 0x5E95, 0xC7] ++ []
    ∧ (crc8 (hi 0x03E8) [lo 0x03E8] = 0xD4 ∧ crc8 (hi 0x6667) [lo 0x6667] = 0xA2 ∧ crc8 (hi 0x5E95) [lo 0x5E95] = 0xC7)
    ∧ parseFrame [0x03, 0xE8] = .malformedResponse := by decide +kernel

end Sys2Proof.Tests
end

section
/-!
PROOFS. One equation per operation, and what a step and a run keep, said once: the proofs of the statements cite these
and unfold neither `exec` nor `step`.
-/

namespace Sys2Proof.Machine

/-! ### One equation per operation -/

@[simp] theorem exec_nop (s : State) : exec .nop s = .next s := rfl

@[simp] theorem exec_crcinit (s : State) : exec .crcinit s = .next ((s.setCrc 0xFF).setMatch false) := rfl

@[simp] theorem exec_crcbyte (d : Byte) (s : State) :
    exec (.crcbyte d) s = .next ((s.setCrc (crcByte s.crc d)).setMatch false) := rfl

@[simp] theorem exec_crcchk (e : Byte) (s : State) : exec (.crcchk e) s = .next (s.setMatch (s.crc == e)) := rfl

@[simp] theorem exec_fstart (s : State) : exec .fstart s = .next s.openFrame := rfl

@[simp] theorem exec_rsv7 (s : State) : exec .rsv7 s = .next (s.setFault (withIll s.fault)) := rfl

theorem exec_fbyte_of_not_recv {s : State} (d : Byte) (h : s.st ≠ .recv) :
    exec (.fbyte d) s = .next (s.setFault (withSeq s.fault)) := by
  simp [exec, execFbyte, h]

theorem exec_fbyte_of_full {s : State} (d : Byte) (h : s.st = .recv) (hc : 9 ≤ s.cnt.val) :
    exec (.fbyte d) s = .next (s.setCnt 10) := by
  simp [exec, execFbyte, h, slotOf_eq_none.mpr hc]

theorem exec_fbyte_of_slot {s : State} {p : Slot} (d : Byte) (h : s.st = .recv) (hp : slotOf s.cnt = some p) :
    exec (.fbyte d) s = .next ((s.takeByte p d).setCnt (nextCnt s.cnt)) := by
  simp [exec, execFbyte, h, hp]

theorem exec_fend_of_not_recv {s : State} (h : s.st ≠ .recv) :
    exec .fend s = .next (s.setFault (withSeq s.fault)) := by
  simp [exec, execFend, h]

theorem exec_fend_of_recv {s : State} (h : s.st = .recv) : exec .fend s = .next (s.setSt .done).judgeFrame := by
  simp [exec, execFend, h]

/-- Everything FBYTE can do (R80). -/
theorem exec_fbyte_cases {d : Byte} {s t : State} (h : exec (.fbyte d) s = .next t) :
    (s.st ≠ .recv ∧ t = s.setFault (withSeq s.fault))
    ∨ (s.st = .recv ∧ 9 ≤ s.cnt.val ∧ t = s.setCnt 10)
    ∨ (s.st = .recv ∧ ∃ p, slotOf s.cnt = some p ∧ t = (s.takeByte p d).setCnt (nextCnt s.cnt)) := by
  by_cases hr : s.st = .recv
  · cases hp : slotOf s.cnt with
    | none =>
      have hc := slotOf_eq_none.mp hp
      rw [exec_fbyte_of_full d hr hc] at h
      cases h
      exact .inr (.inl ⟨hr, hc, rfl⟩)
    | some p =>
      rw [exec_fbyte_of_slot d hr hp] at h
      cases h
      exact .inr (.inr ⟨hr, p, rfl, rfl⟩)
  · rw [exec_fbyte_of_not_recv d hr] at h
    cases h
    exact .inl ⟨hr, rfl⟩

/-- Everything FEND can do (R81). -/
theorem exec_fend_cases {s t : State} (h : exec .fend s = .next t) :
    (s.st ≠ .recv ∧ t = s.setFault (withSeq s.fault)) ∨ (s.st = .recv ∧ t = (s.setSt .done).judgeFrame) := by
  by_cases hr : s.st = .recv
  · rw [exec_fend_of_recv hr] at h
    cases h
    exact .inr ⟨hr, rfl⟩
  · rw [exec_fend_of_not_recv hr] at h
    cases h
    exact .inl ⟨hr, rfl⟩

/-! ### What taking a byte and judging a frame leave unchanged -/

/-- A byte of a frame goes to W, FCRC or OK, and to no other register. -/
theorem State.takeByte_eq (s : State) (p : Slot) (d : Byte) :
    s.takeByte p d = { s with w := (s.takeByte p d).w, fcrc := (s.takeByte p d).fcrc, ok := (s.takeByte p d).ok } := by
  rcases s.takeByte_cases p d with ⟨-, h⟩ | ⟨-, h⟩ | ⟨-, h⟩ <;> rw [h] <;> rfl

@[simp] theorem State.takeByte_crc (s : State) (p : Slot) (d : Byte) : (s.takeByte p d).crc = s.crc := by
  rw [State.takeByte_eq]
@[simp] theorem State.takeByte_matchFlag (s : State) (p : Slot) (d : Byte) :
    (s.takeByte p d).matchFlag = s.matchFlag := by
  rw [State.takeByte_eq]
@[simp] theorem State.takeByte_st (s : State) (p : Slot) (d : Byte) : (s.takeByte p d).st = s.st := by
  rw [State.takeByte_eq]
@[simp] theorem State.takeByte_err (s : State) (p : Slot) (d : Byte) : (s.takeByte p d).err = s.err := by
  rw [State.takeByte_eq]
@[simp] theorem State.takeByte_egrp (s : State) (p : Slot) (d : Byte) : (s.takeByte p d).egrp = s.egrp := by
  rw [State.takeByte_eq]
@[simp] theorem State.takeByte_fault (s : State) (p : Slot) (d : Byte) : (s.takeByte p d).fault = s.fault := by
  rw [State.takeByte_eq]

/-- The verdict on a frame goes to ERR and EGRP, and to no other register. -/
theorem State.judgeFrame_eq (s : State) :
    s.judgeFrame = { s with err := s.judgeFrame.err, egrp := s.judgeFrame.egrp } := by
  rcases s.judgeFrame_cases with ⟨-, h⟩ | ⟨g, -, -, -, h⟩ | ⟨-, -, h⟩ <;> rw [h] <;> rfl

@[simp] theorem State.judgeFrame_crc (s : State) : s.judgeFrame.crc = s.crc := by rw [State.judgeFrame_eq]
@[simp] theorem State.judgeFrame_matchFlag (s : State) : s.judgeFrame.matchFlag = s.matchFlag := by
  rw [State.judgeFrame_eq]
@[simp] theorem State.judgeFrame_fcrc (s : State) : s.judgeFrame.fcrc = s.fcrc := by rw [State.judgeFrame_eq]
@[simp] theorem State.judgeFrame_st (s : State) : s.judgeFrame.st = s.st := by rw [State.judgeFrame_eq]
@[simp] theorem State.judgeFrame_cnt (s : State) : s.judgeFrame.cnt = s.cnt := by rw [State.judgeFrame_eq]
@[simp] theorem State.judgeFrame_w (s : State) : s.judgeFrame.w = s.w := by rw [State.judgeFrame_eq]
@[simp] theorem State.judgeFrame_ok (s : State) : s.judgeFrame.ok = s.ok := by rw [State.judgeFrame_eq]
@[simp] theorem State.judgeFrame_fault (s : State) : s.judgeFrame.fault = s.fault := by rw [State.judgeFrame_eq]

/-! ### What an operation leaves unchanged, and what becomes of FAULT -/

/-- An operation that is no frame operation leaves every frame register alone. -/
theorem exec_sameFrame_of_not_frameOp {i : Instr} {s t : State} (h : exec i s = .next t)
    (hi : i.isFrameOp = false) : s.SameFrame t := by
  cases i with
  | nop | crcinit | crcbyte d | crcchk e | rsv7 => cases h; exact ⟨rfl, rfl, rfl, rfl, rfl, rfl, rfl⟩
  | fstart | fbyte d | fend => cases hi

/-- An operation that does not write MATCH does not write CRC either. -/
theorem exec_sameGeneric_of_not_writesMatch {i : Instr} {s t : State} (h : exec i s = .next t)
    (hi : i.writesMatch = false) : s.SameGeneric t := by
  cases i with
  | nop | fstart | rsv7 => cases h; exact ⟨rfl, rfl⟩
  | crcinit | crcbyte d | crcchk e => cases hi
  | fbyte d =>
    rcases exec_fbyte_cases h with ⟨-, rfl⟩ | ⟨-, -, rfl⟩ | ⟨-, p, -, rfl⟩ <;> simp [State.SameGeneric]
  | fend => rcases exec_fend_cases h with ⟨-, rfl⟩ | ⟨-, rfl⟩ <;> simp [State.SameGeneric]

/-- Only CRCINIT and CRCBYTE write CRC (R14). -/
theorem exec_crc_of_not_writesCrc {i : Instr} {s t : State} (h : exec i s = .next t)
    (hi : i.writesCrc = false) : t.crc = s.crc := by
  cases i with
  | crcinit | crcbyte d => cases hi
  | crcchk e => cases h; rfl
  | nop | fstart | fbyte d | fend | rsv7 => exact (exec_sameGeneric_of_not_writesMatch h rfl).1.symm

/-- FAULT is kept, but for ILL at the reserved code and SEQ at FBYTE and FEND outside RECV (R22). -/
theorem exec_fault_cases {i : Instr} {s t : State} (h : exec i s = .next t) :
    t.fault = s.fault
    ∨ (i = .rsv7 ∧ t.fault = withIll s.fault)
    ∨ (((∃ d, i = .fbyte d) ∨ i = .fend) ∧ s.st ≠ .recv ∧ t.fault = withSeq s.fault) := by
  cases i with
  | nop | crcinit | crcbyte d | crcchk e | fstart => cases h; exact .inl rfl
  | rsv7 => cases h; exact .inr (.inl ⟨rfl, rfl⟩)
  | fbyte d =>
    rcases exec_fbyte_cases h with ⟨hr, rfl⟩ | ⟨-, -, rfl⟩ | ⟨-, p, -, rfl⟩
    · exact .inr (.inr ⟨.inl ⟨d, rfl⟩, hr, rfl⟩)
    · exact .inl rfl
    · exact .inl (by simp)
  | fend =>
    rcases exec_fend_cases h with ⟨hr, rfl⟩ | ⟨-, rfl⟩
    · exact .inr (.inr ⟨.inr rfl, hr, rfl⟩)
    · exact .inl (by simp)

/-- No operation clears a bit of FAULT (R22). -/
theorem exec_keeps_fault_bits {i : Instr} {s t : State} (h : exec i s = .next t) :
    (s.ill = true → t.ill = true) ∧ (s.seq = true → t.seq = true) := by
  obtain ⟨ill_set, seq_kept, -⟩ := withIll_bits s.fault
  obtain ⟨seq_set, ill_kept, -⟩ := withSeq_bits s.fault
  rcases exec_fault_cases h with hf | ⟨-, hf⟩ | ⟨-, -, hf⟩
  · rw [State.ill, State.seq, State.ill, State.seq, hf]
    exact ⟨id, id⟩
  · rw [State.ill, State.seq, State.ill, State.seq, hf, seq_kept]
    exact ⟨fun _ => ill_set, id⟩
  · rw [State.ill, State.seq, State.ill, State.seq, hf, ill_kept]
    exact ⟨id, fun _ => seq_set⟩

/-- No operation touches the model's own fields. -/
theorem exec_driven_edges {i : Instr} {s t : State} (h : exec i s = .next t) :
    t.driven = s.driven ∧ t.edges = s.edges := by
  obtain ⟨t', h', hd, he⟩ := exec_answers_next i s
  cases h.symm.trans h'
  exact ⟨hd, he⟩

/-! ### Steps and runs -/

/-- The step function has no stuck state (R121). -/
theorem step_answers_next (s : State) : ∃ t, step s = .next t := by
  rcases step_cases s with ⟨-, h⟩ | ⟨-, h⟩
  · exact ⟨_, h⟩
  · obtain ⟨t, ht, -⟩ := exec_answers_next s.sample.instr s.advance
    exact ⟨t, h.trans ht⟩

theorem step_of_reset {s t : State} (h : step s = .next t) (hr : s.sample.rst = true) :
    t = s.advance.resetRegs := by
  rcases step_cases s with ⟨-, hs⟩ | ⟨hr', -⟩
  · cases h.symm.trans hs
    rfl
  · rw [hr] at hr'
    cases hr'

theorem step_of_operation {s t : State} (h : step s = .next t) (hr : s.sample.rst = false) :
    exec s.sample.instr s.advance = .next t := by
  rcases step_cases s with ⟨hr', -⟩ | ⟨-, hs⟩
  · rw [hr] at hr'
    cases hr'
  · exact hs.symm.trans h

/-- Every step uses up one pin sample. -/
theorem step_driven {s t : State} (h : step s = .next t) : t.driven = s.driven.tail := by
  cases hr : s.sample.rst with
  | true =>
    rw [step_of_reset h hr]
    rfl
  | false => exact (exec_driven_edges (step_of_operation h hr)).1

/-- Every run completes. -/
theorem runEdges_answers_next (n : Nat) (s : State) : ∃ t, runEdges n s = .next t := by
  induction n generalizing s with
  | zero => exact ⟨s, rfl⟩
  | succ n ih =>
    obtain ⟨u, hu⟩ := step_answers_next s
    rw [runEdges_succ_of_step n hu]
    exact ih u

/-- A run over driven pins uses up exactly those pins. -/
theorem runEdges_driven {pins rest : List Pins} {s t : State} (hd : s.driven = pins ++ rest)
    (h : runEdges pins.length s = .next t) : t.driven = rest := by
  induction pins generalizing s with
  | nil =>
    cases h
    exact hd
  | cons p pins ih =>
    obtain ⟨u, hu⟩ := step_answers_next s
    rw [List.length_cons, runEdges_succ_of_step _ hu] at h
    exact ih (by rw [step_driven hu, hd]; rfl) h

/-- What every step keeps at a sample that meets `Q`, a run keeps over driven pins that meet `Q`. -/
theorem runEdges_keeps {P : State → Prop} {Q : Pins → Prop}
    (keep : ∀ {s t : State}, Q s.sample → step s = .next t → P s → P t)
    {pins rest : List Pins} {s t : State} (hd : s.driven = pins ++ rest) (hQ : ∀ r ∈ pins, Q r)
    (h : runEdges pins.length s = .next t) (hs : P s) : P t := by
  induction pins generalizing s with
  | nil =>
    cases h
    exact hs
  | cons p pins ih =>
    obtain ⟨u, hu⟩ := step_answers_next s
    rw [List.length_cons, runEdges_succ_of_step _ hu] at h
    have hp : Q s.sample := by
      rw [State.sample_of_driven hd]
      exact hQ p List.mem_cons_self
    exact ih (by rw [step_driven hu, hd]; rfl) (fun r hr => hQ r (List.mem_cons_of_mem p hr)) h (keep hp hu hs)

/-- The run over a second part of the driven pins, from the state that the first part leaves. -/
theorem runEdges_suffix {pre post : List Pins} {s u t : State} (hu : runEdges pre.length s = .next u)
    (ht : runEdges (pre ++ post).length s = .next t) : runEdges post.length u = .next t := by
  rw [← runEdges_add_of_run post.length hu, ← List.length_append]
  exact ht

end Sys2Proof.Machine
end

section
/-!
PROOFS. R28's items 1 to 8 by frame state, kept by every step: what an ended frame shows is the verdict on its CNT and
OK.
-/

namespace Sys2Proof.Machine

/-- ERR and EGRP are R81's verdict on the frame that CNT and OK describe. -/
def State.Verdict (s : State) : Prop :=
  (s.cnt ≠ 9 ∧ s.err = .malformedResponse ∧ s.egrp = 0)
  ∨ (s.cnt = 9 ∧ lowestFailing s.ok = some s.egrp ∧ s.err = .checksumMismatch)
  ∨ (s.cnt = 9 ∧ lowestFailing s.ok = none ∧ s.err = .none ∧ s.egrp = 0)

theorem State.judgeFrame_verdict (s : State) : s.judgeFrame.Verdict := by
  rcases s.judgeFrame_cases with ⟨hc, h⟩ | ⟨g, hc, hg, hlow, h⟩ | ⟨hc, hok, h⟩ <;> rw [h]
  · exact .inl ⟨hc, rfl, rfl⟩
  · exact .inr (.inl ⟨hc, lowestFailing_eq_some.mpr ⟨hg, hlow⟩, rfl⟩)
  · exact .inr (.inr ⟨hc, lowestFailing_eq_none.mpr hok, rfl, rfl⟩)

/-- R28 by frame state: nothing of a frame in IDLE, no error before DONE, the frame's own verdict in DONE. -/
theorem State.inv_iff (s : State) :
    s.Inv ↔ (s.st = .idle → s.FrameAtReset) ∧ (s.st ≠ .done → s.err = .none ∧ s.egrp = 0)
      ∧ (s.st = .done → s.Verdict) := by
  constructor
  · rintro ⟨-, err_done, egrp_err, idle_reset, mismatch, verified, malformed⟩
    have egrp_zero (he : s.err ≠ .checksumMismatch) : s.egrp = 0 := by_contra fun hg => he (egrp_err hg)
    refine ⟨idle_reset, fun hst => ?_, fun hst => ?_⟩
    · have he : s.err = .none := by_contra fun he => hst (err_done he)
      exact ⟨he, egrp_zero (by simp [he])⟩
    · cases he : s.err with
      | none =>
        obtain ⟨hc, hok⟩ := verified hst he
        exact .inr (.inr ⟨hc, lowestFailing_eq_none.mpr hok, he, egrp_zero (by simp [he])⟩)
      | checksumMismatch =>
        obtain ⟨hg, hlow, hc⟩ := mismatch he
        exact .inr (.inl ⟨hc, lowestFailing_eq_some.mpr ⟨hg, hlow⟩, he⟩)
      | malformedResponse => exact .inl ⟨malformed he, he, egrp_zero (by simp [he])⟩
  · rintro ⟨idle_reset, silent, verdict⟩
    by_cases hst : s.st = .done
    · rcases verdict hst with ⟨hc, he, hg⟩ | ⟨hc, hlow, he⟩ | ⟨hc, hok, he, hg⟩
      · simp [State.Inv, hst, he, hg, hc]
      · obtain ⟨hg, hbelow⟩ := lowestFailing_eq_some.mp hlow
        simpa [State.Inv, hst, he, hc, hg] using hbelow
      · simp [State.Inv, hst, he, hg, hc, lowestFailing_eq_none.mp hok]
    · obtain ⟨he, hg⟩ := silent hst
      have cnt_zero (hidle : s.st = .idle) : s.cnt = 0 := by
        obtain ⟨-, hc, -⟩ := idle_reset hidle
        exact hc
      simpa [State.Inv, hst, he, hg] using ⟨cnt_zero, idle_reset⟩

/-- R28's items 1 to 8 speak of the frame registers only. -/
theorem State.Inv.of_sameFrame {s t : State} (hi : s.Inv) (h : s.SameFrame t) : t.Inv := by
  obtain ⟨hfcrc, hst, hcnt, hw, hok, herr, hegrp⟩ := h
  simpa only [State.Inv, State.FrameAtReset, hfcrc, hst, hcnt, hw, hok, herr, hegrp] using hi

theorem State.inv_of_open {t : State} (hst : t.st = .recv) (he : t.err = .none) (hg : t.egrp = 0) : t.Inv :=
  t.inv_iff.mpr ⟨by simp [hst], fun _ => ⟨he, hg⟩, by simp [hst]⟩

theorem State.inv_of_verdict {t : State} (hst : t.st = .done) (hv : t.Verdict) : t.Inv :=
  t.inv_iff.mpr ⟨by simp [hst], fun h => absurd hst h, fun _ => hv⟩

theorem State.resetRegs_frameAtReset (s : State) : s.resetRegs.FrameAtReset := ⟨rfl, rfl, rfl, rfl, rfl, rfl⟩

theorem State.resetRegs_inv (s : State) : s.resetRegs.Inv :=
  s.resetRegs.inv_iff.mpr ⟨fun _ => s.resetRegs_frameAtReset, fun _ => ⟨rfl, rfl⟩, by simp⟩

/-- While no frame has been ended, no error stands. -/
theorem State.Inv.no_error_of_not_done {s : State} (hi : s.Inv) (hst : s.st ≠ .done) : s.err = .none ∧ s.egrp = 0 :=
  (s.inv_iff.mp hi).2.1 hst

theorem State.Inv.verdict_of_done {s : State} (hi : s.Inv) (hst : s.st = .done) : s.Verdict :=
  (s.inv_iff.mp hi).2.2 hst

/-- Every operation keeps R28's items 1 to 8. -/
theorem exec_keeps_inv {i : Instr} {s t : State} (hi : s.Inv) (h : exec i s = .next t) : t.Inv := by
  cases i with
  | nop | crcinit | crcbyte d | crcchk e | rsv7 => exact hi.of_sameFrame (exec_sameFrame_of_not_frameOp h rfl)
  | fstart =>
    cases h
    exact State.inv_of_open rfl rfl rfl
  | fbyte d =>
    rcases exec_fbyte_cases h with ⟨-, rfl⟩ | ⟨hr, -, rfl⟩ | ⟨hr, p, -, rfl⟩
    · exact hi.of_sameFrame ⟨rfl, rfl, rfl, rfl, rfl, rfl, rfl⟩
    · obtain ⟨he, hg⟩ := hi.no_error_of_not_done (by simp [hr])
      exact State.inv_of_open hr he hg
    · obtain ⟨he, hg⟩ := hi.no_error_of_not_done (by simp [hr])
      exact State.inv_of_open (by simp [hr]) (by simp [he]) (by simp [hg])
  | fend =>
    rcases exec_fend_cases h with ⟨-, rfl⟩ | ⟨-, rfl⟩
    · exact hi.of_sameFrame ⟨rfl, rfl, rfl, rfl, rfl, rfl, rfl⟩
    · exact State.inv_of_verdict (by simp) (State.judgeFrame_verdict _)

/-- Every step keeps R28's items 1 to 8. -/
theorem step_keeps_inv {s t : State} (hi : s.Inv) (h : step s = .next t) : t.Inv := by
  cases hr : s.sample.rst with
  | true =>
    rw [step_of_reset h hr]
    exact s.advance.resetRegs_inv
  | false =>
    have advanced : s.advance.Inv := hi.of_sameFrame ⟨rfl, rfl, rfl, rfl, rfl, rfl, rfl⟩
    exact exec_keeps_inv advanced (step_of_operation h hr)

/-- Settles O36: the reset step establishes the invariant, and every operation keeps it. -/
theorem invariantKeptByEveryStep : Obligations.InvariantKeptByEveryStep :=
  fun _ _ hi h => step_keeps_inv hi h

end Sys2Proof.Machine
end

section
/-!
PROOFS. The statements on the state of 10_state.md: where MATCH and FAULT come from in a run, the writers of each
register, the ports of a standing result, the reset state.
-/

namespace Sys2Proof

/-- The sample is neither a reset step nor an operation that writes MATCH. -/
abbrev Pins.LeavesMatch (r : Pins) : Prop := r.rst = false ∧ r.instr.writesMatch = false

theorem Instr.writesCrc_eq_false_iff (i : Instr) : i.writesCrc = false ↔ i ≠ .crcinit ∧ ∀ d, i ≠ .crcbyte d := by
  cases i <;> simp [Instr.writesCrc]

theorem Instr.writesMatch_eq_false_iff (i : Instr) :
    i.writesMatch = false ↔ i ≠ .crcinit ∧ (∀ d, i ≠ .crcbyte d) ∧ ∀ e, i ≠ .crcchk e := by
  cases i <;> simp [Instr.writesMatch]

end Sys2Proof

namespace Sys2Proof.Machine

/-! ### The source of MATCH in a run -/

/-- R28's item 9: among the driven pins from `s` on, the last that writes MATCH is a CRCCHK of the value `c`, which CRC
held at it. -/
def State.MatchSetBy (s : State) (pins : List Pins) (c : Byte) : Prop :=
  ∃ (pre post : List Pins) (q : Pins), pins = pre ++ q :: post ∧ q.rst = false ∧ q.instr = .crcchk c
    ∧ (∀ r ∈ post, r.LeavesMatch) ∧ ∃ u, runEdges pre.length s = .next u ∧ u.crc = c

/-- After one step MATCH is 1 only by a CRCCHK of the value of CRC, or because it was. -/
theorem step_match_source {s t : State} (h : step s = .next t) (hm : t.matchFlag = true) :
    (s.sample.rst = false ∧ s.sample.instr = .crcchk t.crc ∧ s.crc = t.crc)
    ∨ (s.sample.LeavesMatch ∧ s.SameGeneric t) := by
  cases hr : s.sample.rst with
  | true =>
    rw [step_of_reset h hr] at hm
    cases hm
  | false =>
    have he := step_of_operation h hr
    cases hi : s.sample.instr with
    | crcinit | crcbyte d =>
      rw [hi] at he
      cases he
      cases hm
    | crcchk e =>
      rw [hi] at he
      cases he
      have hce : s.crc = e := by simpa using hm
      exact .inl ⟨rfl, by simp [hce], rfl⟩
    | nop | fstart | fbyte d | fend | rsv7 =>
      have hw : s.sample.instr.writesMatch = false := by rw [hi]; rfl
      have kept : s.advance.SameGeneric t := exec_sameGeneric_of_not_writesMatch he hw
      exact .inr ⟨⟨hr, hw⟩, kept⟩

/-- A source of MATCH after the first step of a run is one in the whole run. -/
theorem State.MatchSetBy.cons {s u : State} {p : Pins} {pins : List Pins} {c : Byte} (h : step s = .next u)
    (hu : u.MatchSetBy pins c) : s.MatchSetBy (p :: pins) c := by
  obtain ⟨pre, post, q, rfl, hq, hi, hpost, v, hv, hc⟩ := hu
  exact ⟨p :: pre, post, q, rfl, hq, hi, hpost, v, (runEdges_succ_of_step pre.length h).trans hv, hc⟩

/-- After a run MATCH is 1 only by a CRCCHK of the value of CRC in it, or because it was and nothing wrote it. -/
theorem runEdges_match_source {pins rest : List Pins} {s t : State} (hd : s.driven = pins ++ rest)
    (h : runEdges pins.length s = .next t) (hm : t.matchFlag = true) :
    s.MatchSetBy pins t.crc ∨ ((∀ r ∈ pins, r.LeavesMatch) ∧ s.SameGeneric t) := by
  induction pins generalizing s with
  | nil =>
    cases h
    exact .inr ⟨by simp, rfl, rfl⟩
  | cons p pins ih =>
    obtain ⟨u, hu⟩ := step_answers_next s
    rw [List.length_cons, runEdges_succ_of_step _ hu] at h
    rcases ih (by rw [step_driven hu, hd]; rfl) h with later | ⟨quiet, hcrc, hmatch⟩
    · exact .inl (later.cons hu)
    · have hsource := step_match_source hu (hmatch.trans hm)
      rw [State.sample_of_driven hd, hcrc] at hsource
      rcases hsource with ⟨hr, hi, hc⟩ | ⟨hp, hcrc', hmatch'⟩
      · exact .inl ⟨[], pins, p, rfl, hr, hi, quiet, s, rfl, hc⟩
      · exact .inr ⟨List.forall_mem_cons.mpr ⟨hp, quiet⟩, hcrc'.trans hcrc, hmatch'.trans hmatch⟩

/-! ### FAULT and the invariant in a run -/

/-- A FAULT bit that is 1 stays 1 over a run without reset steps (R28, item 10). -/
theorem runEdges_keeps_fault_bits {pins rest : List Pins} {s t : State} (hd : s.driven = pins ++ rest)
    (hr : ∀ r ∈ pins, r.rst = false) (h : runEdges pins.length s = .next t) :
    (s.ill = true → t.ill = true) ∧ (s.seq = true → t.seq = true) := by
  have keep {u v : State} (hu : u.sample.rst = false) (huv : step u = .next v) :=
    exec_keeps_fault_bits (step_of_operation huv hu)
  exact ⟨runEdges_keeps (P := fun u => u.ill = true) (fun hu huv => (keep hu huv).1) hd hr h,
    runEdges_keeps (P := fun u => u.seq = true) (fun hu huv => (keep hu huv).2) hd hr h⟩

/-- Whatever state a run that begins with a reset step began in, R28's items 1 to 8 hold at its end. -/
theorem inv_of_runEdges_from_reset {p : Pins} {pins rest : List Pins} {s t : State}
    (hd : s.driven = p :: pins ++ rest) (hp : p.rst = true) (h : runEdges (pins.length + 1) s = .next t) :
    t.Inv := by
  obtain ⟨u, hu⟩ := step_answers_next s
  rw [runEdges_succ_of_step _ hu] at h
  have hr : s.sample.rst = true := by rw [State.sample_of_driven hd, hp]
  have hu_inv : u.Inv := by
    rw [step_of_reset hu hr]
    exact s.advance.resetRegs_inv
  have hu_driven : u.driven = pins ++ rest := by
    rw [step_driven hu, hd]
    rfl
  exact runEdges_keeps (Q := fun _ => True) (fun _ huv hi => step_keeps_inv hi huv) hu_driven (fun _ _ => trivial)
    h hu_inv

theorem FrameState.code_ne_three (st : FrameState) : st.code ≠ 3 := by cases st <;> decide

theorem FrameErr.code_ne_three (e : FrameErr) : e.code ≠ 3 := by cases e <;> decide

theorem groupCode_ne_three (g : Fin 3) : groupCode g ≠ 3 := by
  revert g
  decide

/-- Settles O37: the invariant along the run, the source of MATCH, and the stickiness of FAULT. -/
theorem statesReachedFromResetMeetTheInvariants : Obligations.StatesReachedFromResetMeetTheInvariants := by
  intro s p pins rest hd hp
  obtain ⟨t, ht⟩ := runEdges_answers_next (pins.length + 1) s
  refine ⟨t, ht, t.st.code_ne_three, Nat.le_of_lt_succ t.cnt.isLt, t.err.code_ne_three, groupCode_ne_three t.egrp,
    inv_of_runEdges_from_reset hd hp ht, fun hm => ?_, fun pre post hsplit hpost u hu => ?_⟩
  · rcases runEdges_match_source hd ht hm with hset | ⟨quiet, -⟩
    · exact hset
    · obtain ⟨hp', -⟩ := quiet p List.mem_cons_self
      rw [hp] at hp'
      cases hp'
  · have ht' : runEdges (pre ++ post).length s = .next t := by
      rw [← hsplit]
      exact ht
    have hd' : s.driven = pre ++ (post ++ rest) := by rw [hd, hsplit, List.append_assoc]
    exact runEdges_keeps_fault_bits (runEdges_driven hd' hu) hpost (runEdges_suffix hu ht')

/-! ### The writers of each register -/

/-- FCRC, CNT, W and OK are written by FSTART and FBYTE only (R12, R16, R18, R19). -/
theorem exec_keeps_frame_data {i : Instr} {s t : State} (h : exec i s = .next t) (hs : i ≠ .fstart)
    (hb : ∀ d, i ≠ .fbyte d) : t.fcrc = s.fcrc ∧ t.cnt = s.cnt ∧ t.w = s.w ∧ t.ok = s.ok := by
  cases i with
  | nop | crcinit | crcbyte d | crcchk e | rsv7 =>
    obtain ⟨hfcrc, -, hcnt, hw, hok, -⟩ := exec_sameFrame_of_not_frameOp h rfl
    exact ⟨hfcrc.symm, hcnt.symm, hw.symm, hok.symm⟩
  | fstart => exact absurd rfl hs
  | fbyte d => exact absurd rfl (hb d)
  | fend => rcases exec_fend_cases h with ⟨-, rfl⟩ | ⟨-, rfl⟩ <;> simp

/-- ST, ERR and EGRP are written by FSTART, and by FEND in RECV, only (R17, R20, R21). -/
theorem exec_keeps_frame_status {i : Instr} {s t : State} (h : exec i s = .next t) (hs : i ≠ .fstart)
    (he : ¬(i = .fend ∧ s.st = .recv)) : t.st = s.st ∧ t.err = s.err ∧ t.egrp = s.egrp := by
  cases i with
  | nop | crcinit | crcbyte d | crcchk e | rsv7 =>
    obtain ⟨-, hst, -, -, -, herr, hegrp⟩ := exec_sameFrame_of_not_frameOp h rfl
    exact ⟨hst.symm, herr.symm, hegrp.symm⟩
  | fstart => exact absurd rfl hs
  | fbyte d => rcases exec_fbyte_cases h with ⟨-, rfl⟩ | ⟨-, -, rfl⟩ | ⟨-, p, -, rfl⟩ <;> simp
  | fend =>
    rcases exec_fend_cases h with ⟨-, rfl⟩ | ⟨hr, -⟩
    · exact ⟨rfl, rfl, rfl⟩
    · exact absurd ⟨rfl, hr⟩ he

/-- FAULT is written by RSV7, and by FBYTE and FEND outside RECV, only (R22). -/
theorem exec_keeps_fault {i : Instr} {s t : State} (h : exec i s = .next t) (hr : i ≠ .rsv7)
    (hq : ¬(((∃ d, i = .fbyte d) ∨ i = .fend) ∧ s.st ≠ .recv)) : t.fault = s.fault := by
  rcases exec_fault_cases h with hf | ⟨hi, -⟩ | ⟨hi, hst, -⟩
  · exact hf
  · exact absurd hi hr
  · exact absurd ⟨hi, hst⟩ hq

/-- Settles O27: one frame lemma per group of registers that have the same writers. -/
theorem eachRegisterHasOnlyItsWriters : Obligations.EachRegisterHasOnlyItsWriters := by
  intro i s t h
  refine ⟨fun hi hb => ?_, fun hi hb hc => ?_, exec_keeps_frame_data h, exec_keeps_frame_status h,
    exec_keeps_fault h, exec_driven_edges h⟩
  · exact exec_crc_of_not_writesCrc h (i.writesCrc_eq_false_iff.mpr ⟨hi, hb⟩)
  · exact (exec_sameGeneric_of_not_writesMatch h (i.writesMatch_eq_false_iff.mpr ⟨hi, hb, hc⟩)).2.symm

/-! ### The frame's ports -/

theorem State.ports_of_not_done {s : State} (hst : s.st ≠ .done) (he : s.err = .none) (hg : s.egrp = 0) :
    s.outputs.frame = FramePorts.silent := by
  simp [State.outputs, Outputs.frame, State.valid, hst, he, hg, FrameErr.code, groupCode, gate, Config.gatedWord,
    FramePorts.silent]

theorem State.ports_of_verified {s : State} (hst : s.st = .done) (he : s.err = .none) (hg : s.egrp = 0) :
    s.outputs.frame = (FrameResult.words (s.w.get 0) (s.w.get 1) (s.w.get 2)).ports := by
  simp [State.outputs, Outputs.frame, State.valid, hst, he, hg, FrameErr.code, groupCode, gate, FrameResult.ports]

theorem State.ports_of_checksumMismatch {s : State} (hst : s.st = .done) (he : s.err = .checksumMismatch) :
    s.outputs.frame = (FrameResult.checksumMismatch s.egrp).ports := by
  simp [State.outputs, Outputs.frame, State.valid, hst, he, FrameErr.code, gate, Config.gatedWord, FrameResult.ports]

theorem State.ports_of_malformedResponse {s : State} (hst : s.st = .done) (he : s.err = .malformedResponse)
    (hg : s.egrp = 0) : s.outputs.frame = FrameResult.malformedResponse.ports := by
  simp [State.outputs, Outputs.frame, State.valid, hst, he, hg, FrameErr.code, groupCode, gate, Config.gatedWord,
    FrameResult.ports]

/-- The outcome of a frame (R77) as CNT, OK and W hold it. -/
def State.standingResult (s : State) : FrameResult :=
  if s.cnt = 9 then
    match lowestFailing s.ok with
    | some g => .checksumMismatch g
    | none => .words (s.w.get 0) (s.w.get 1) (s.w.get 2)
  else .malformedResponse

theorem State.standingResult_of_cnt_ne {s : State} (hc : s.cnt ≠ 9) : s.standingResult = .malformedResponse := by
  simp [State.standingResult, hc]

theorem State.standingResult_of_failing {s : State} {g : Fin 3} (hc : s.cnt = 9)
    (hg : lowestFailing s.ok = some g) : s.standingResult = .checksumMismatch g := by
  simp [State.standingResult, hc, hg]

theorem State.standingResult_of_verified {s : State} (hc : s.cnt = 9) (hok : lowestFailing s.ok = none) :
    s.standingResult = .words (s.w.get 0) (s.w.get 1) (s.w.get 2) := by
  simp [State.standingResult, hc, hok]

/-- An ended frame whose error registers hold its verdict shows R82's row of its outcome. -/
theorem State.Verdict.ports {s : State} (hv : s.Verdict) (hst : s.st = .done) :
    s.outputs.frame = s.standingResult.ports := by
  rcases hv with ⟨hc, he, hg⟩ | ⟨hc, hlow, he⟩ | ⟨hc, hok, he, hg⟩
  · rw [State.ports_of_malformedResponse hst he hg, State.standingResult_of_cnt_ne hc]
  · rw [State.ports_of_checksumMismatch hst he, State.standingResult_of_failing hc hlow]
  · rw [State.ports_of_verified hst he hg, State.standingResult_of_verified hc hok]

/-- Such a frame passes the validity gate exactly when it had 9 bytes and every group verified. -/
theorem State.Verdict.validO_iff {s : State} (hv : s.Verdict) (hst : s.st = .done) :
    s.outputs.validO = true ↔ s.cnt = 9 ∧ lowestFailing s.ok = none := by
  have hvalid : s.outputs.validO = s.valid := rfl
  rcases hv with ⟨hc, he, -⟩ | ⟨-, hlow, he⟩ | ⟨hc, hok, he, -⟩
  · simp [hvalid, State.valid, hst, he, hc]
  · simp [hvalid, State.valid, hst, he, hlow]
  · simp [hvalid, State.valid, hst, he, hc, hok]

/-- Settles O33: before DONE no error stands, and in DONE the ports show the outcome that CNT, OK and W hold. -/
theorem portsShowTheStandingResult : Obligations.PortsShowTheStandingResult := by
  intro s hi
  refine ⟨fun hst => ?_, fun hst => ?_⟩
  · obtain ⟨he, hg⟩ := hi.no_error_of_not_done hst
    exact State.ports_of_not_done hst he hg
  · have hv := hi.verdict_of_done hst
    rw [hv.ports hst, hv.validO_iff hst, lowestFailing_eq_none]
    refine ⟨and_congr_left' Fin.ext_iff, fun ⟨hc, hok⟩ => ?_, fun hc => ?_, fun g hc hg hlow => ?_⟩
    · rw [State.standingResult_of_verified hc (lowestFailing_eq_none.mpr hok)]
      rfl
    · rw [State.standingResult_of_cnt_ne (fun h => hc (congrArg Fin.val h))]
      rfl
    · rw [State.standingResult_of_failing (Fin.ext hc) (lowestFailing_eq_some.mpr ⟨hg, hlow⟩)]
      rfl

/-! ### The reset state -/

/-- Settles O35: State.reset is what a reset step makes of it, and a reset step establishes the invariant. -/
theorem invariantHoldsAtReset : Obligations.InvariantHoldsAtReset := State.resetRegs_inv State.reset

theorem State.resetRegs_regsAtReset (s : State) : s.resetRegs.RegsAtReset :=
  ⟨rfl, rfl, rfl, s.resetRegs_frameAtReset, rfl⟩

/-- Settles O2: the registers are those of a reset step, and the outputs are read off them. -/
theorem stateAfterResetIsTheResetState : Obligations.StateAfterResetIsTheResetState :=
  ⟨State.resetRegs_regsAtReset State.reset, rfl, rfl, rfl⟩

end Sys2Proof.Machine
end

section
/-!
PROOFS. The statement on repeated operations of 20_memory.md R33: a repeated update is the update, and FBYTE counts.
-/

namespace Sys2Proof.Machine

/-! ### Repeated updates -/

/-- CRCINIT, CRCCHK, FSTART and NOP write values that their own writes do not change, so doing them again writes the
same. -/
theorem exec_again_of_idempotent {i : Instr} {s t : State}
    (hi : i = .crcinit ∨ (∃ e, i = .crcchk e) ∨ i = .fstart ∨ i = .nop) (h : exec i s = .next t) :
    exec i t = .next t := by
  rcases hi with rfl | ⟨e, rfl⟩ | rfl | rfl
  · cases h
    exact exec_crcinit _
  · cases h
    exact exec_crcchk e _
  · cases h
    exact exec_fstart _
  · cases h
    exact exec_nop s

/-- FBYTE in RECV leaves the frame open and CNT at `min(CNT + 1, 10)`, at every CNT (R18, R80). -/
theorem exec_fbyte_counts {s t : State} {d : Byte} (hr : s.st = .recv) (h : exec (.fbyte d) s = .next t) :
    t.st = .recv ∧ t.cnt = nextCnt s.cnt := by
  rcases exec_fbyte_cases h with ⟨hn, -⟩ | ⟨-, hc, rfl⟩ | ⟨-, p, -, rfl⟩
  · exact absurd hr hn
  · have full : (10 : ℕ) = min (s.cnt.val + 1) 10 := by omega
    exact ⟨hr, Fin.ext full⟩
  · exact ⟨(s.takeByte_st p d).trans hr, rfl⟩

/-- Settles O34: the four operations by their equations; two FBYTEs count twice, because CNT is below 10 after the
first. -/
theorem repeatedOperationsAreIdempotent : Obligations.RepeatedOperationsAreIdempotent := by
  refine ⟨fun i s hi => ?_, fun s d hr hc => ?_⟩
  · obtain ⟨t, ht, -⟩ := exec_answers_next i s
    exact ⟨t, ht, exec_again_of_idempotent hi ht⟩
  · obtain ⟨t, ht, -⟩ := exec_answers_next (.fbyte d) s
    obtain ⟨u, hu, -⟩ := exec_answers_next (.fbyte d) t
    obtain ⟨ht_recv, ht_cnt⟩ := exec_fbyte_counts hr ht
    obtain ⟨-, hu_cnt⟩ := exec_fbyte_counts ht_recv hu
    refine ⟨t, u, ht, hu, ?_⟩
    rw [hu_cnt, nextCnt_val, ht_cnt, nextCnt_val]
    omega

end Sys2Proof.Machine
end

section
/-!
PROOFS. The statements on the command word (30_encoding.md R45 to R51): its two fields decide the decoded operation,
and so what a canonical word is, which row of the opcode map a word selects, and which bits are ignored.
-/

namespace Sys2Proof

open Sys2Proof.Machine

/-! ### The two fields of a command word -/

@[simp] theorem opOf_append (op : BitVec 3) (d : Byte) : opOf (op ++ d) = op := BitVec.extractLsb'_append_eq_left

@[simp] theorem dataOf_append (op : BitVec 3) (d : Byte) : dataOf (op ++ d) = d := BitVec.extractLsb'_append_eq_right

theorem opOf_append_dataOf (w : CommandWord) : opOf w ++ dataOf w = w := BitVec.extractLsb'_append_extractLsb'

theorem getLsbD_word (op : BitVec 3) (d : Byte) (k : Nat) :
    BitVec.getLsbD (op ++ d : CommandWord) k = if k < 8 then d.getLsbD k else op.getLsbD (k - 8) :=
  BitVec.getLsbD_append

/-- The operation codes of format D (R46): CRCBYTE, CRCCHK and FBYTE. -/
abbrev FormatD (op : BitVec 3) : Prop := op = 2 ∨ op = 3 ∨ op = 5

/-! ### Decoding by fields -/

/-- Every word with the code of the operation decodes to it, provided that in format D its `data` is the operand. -/
theorem decode_opcode_append {i : Instr} {d : Byte} (h : FormatD i.opcode → d = i.operand) :
    decode (i.opcode ++ d) = i := by
  cases i with
  | nop | crcinit | fstart | fend | rsv7 =>
    simp only [decode, Instr.opcode, getLsbD_word]
    rfl
  | crcbyte e | crcchk e | fbyte e =>
    obtain rfl : d = e := h (by simp [FormatD, Instr.opcode])
    simp only [decode, Instr.opcode, getLsbD_word, dataOf_append]
    rfl

/-- Every code with every `data` is one that `decode_opcode_append` speaks of. -/
theorem exists_instr_of_fields (op : BitVec 3) (d : Byte) :
    ∃ i : Instr, op = i.opcode ∧ (FormatD op → d = i.operand) := by
  have eight : ∀ op : BitVec 3,
      op = 0 ∨ op = 1 ∨ op = 2 ∨ op = 3 ∨ op = 4 ∨ op = 5 ∨ op = 6 ∨ op = 7 := by decide
  rcases eight op with rfl | rfl | rfl | rfl | rfl | rfl | rfl | rfl
  · exact ⟨.nop, rfl, by simp⟩
  · exact ⟨.crcinit, rfl, by simp⟩
  · exact ⟨.crcbyte d, rfl, fun _ => rfl⟩
  · exact ⟨.crcchk d, rfl, fun _ => rfl⟩
  · exact ⟨.fstart, rfl, by simp⟩
  · exact ⟨.fbyte d, rfl, fun _ => rfl⟩
  · exact ⟨.fend, rfl, by simp⟩
  · exact ⟨.rsv7, rfl, by simp⟩

/-- A word decodes to an operation exactly when it has its code and, in format D, its operand. -/
theorem decode_eq_iff {w : CommandWord} {i : Instr} :
    decode w = i ↔ opOf w = i.opcode ∧ (FormatD (opOf w) → dataOf w = i.operand) := by
  have of_fields {j : Instr} (hop : opOf w = j.opcode) (hdata : FormatD (opOf w) → dataOf w = j.operand) :
      decode w = j := by
    rw [← opOf_append_dataOf w, hop]
    exact decode_opcode_append (hop ▸ hdata)
  refine ⟨?_, fun ⟨hop, hdata⟩ => of_fields hop hdata⟩
  rintro rfl
  obtain ⟨j, hop, hdata⟩ := exists_instr_of_fields (opOf w) (dataOf w)
  rw [of_fields hop hdata]
  exact ⟨hop, hdata⟩

theorem opcode_decode (w : CommandWord) : (decode w).opcode = opOf w := by
  obtain ⟨hop, -⟩ := decode_eq_iff.mp (Eq.refl (decode w))
  exact hop.symm

theorem operand_decode_of_formatD {w : CommandWord} (h : FormatD (opOf w)) : (decode w).operand = dataOf w := by
  obtain ⟨-, hdata⟩ := decode_eq_iff.mp (Eq.refl (decode w))
  exact (hdata h).symm

theorem decode_eq_decode_iff {w w' : CommandWord} :
    decode w = decode w' ↔ opOf w = opOf w' ∧ (FormatD (opOf w) → dataOf w = dataOf w') := by
  rw [decode_eq_iff, opcode_decode]
  refine and_congr_right fun hop => forall_congr' fun hD => ?_
  rw [operand_decode_of_formatD (hop ▸ hD)]

/-! ### The encoder and the canonical form -/

@[simp] theorem decode_encode (i : Instr) : decode (encode i) = i := decode_opcode_append fun _ => rfl

/-- A word is canonical when its `data` is what the encoder writes for its operation (R49): the form and the decoder
split on the same three bits. -/
theorem wordCanonical_iff {w : CommandWord} : wordCanonical w = true ↔ dataOf w = (decode w).operand := by
  unfold wordCanonical decode
  cases w.getLsbD 10 <;> cases w.getLsbD 9 <;> cases w.getLsbD 8 <;> simp [Instr.operand, dataOf]

theorem encode_canonical (i : Instr) : wordCanonical (encode i) = true :=
  wordCanonical_iff.mpr <| by rw [decode_encode, encode, dataOf_append]

theorem encode_decode_of_canonical {w : CommandWord} (h : wordCanonical w = true) : encode (decode w) = w := by
  rw [encode, opcode_decode, ← wordCanonical_iff.mp h, opOf_append_dataOf]

/-- Settles O7: the code and, in format D, the operand decide what a word decodes to. -/
theorem decodeAndEncodeAgree : Obligations.DecodeAndEncodeAgree :=
  ⟨fun i _ => ⟨decode_encode i, encode_canonical i⟩, fun _ => encode_decode_of_canonical,
    fun _ _ => decode_eq_decode_iff⟩

/-! ### The rows of the opcode map -/

/-- The mask of R48's rows keeps the code and clears `data`. -/
theorem and_rowMask (w : CommandWord) : w &&& 0x700 = opOf w ++ 0#8 := by
  calc w &&& 0x700 = (opOf w ++ dataOf w) &&& (BitVec.allOnes 3 ++ 0#8) := by rw [opOf_append_dataOf]; rfl
    _ = (opOf w &&& BitVec.allOnes 3) ++ (dataOf w &&& 0#8) := BitVec.and_append
    _ = opOf w ++ 0#8 := by rw [BitVec.and_allOnes, BitVec.and_zero]

/-- A row's base word with `data` added is the word of these two fields. -/
theorem append_zero_or_setWidth (op : BitVec 3) (d : Byte) : (op ++ 0#8) ||| d.setWidth 11 = op ++ d := by
  have low : d.setWidth 11 = 0#3 ++ d := BitVec.setWidth_eq_append (by decide)
  calc (op ++ 0#8) ||| d.setWidth 11 = (op ++ 0#8) ||| (0#3 ++ d) := by rw [low]
    _ = (op ||| 0#3) ++ (0#8 ||| d) := BitVec.or_append
    _ = op ++ d := by rw [BitVec.or_zero, BitVec.zero_or]

/-- The words of an operation's row, 0xn00 to 0xnFF, decode to it, in format D at its operand. -/
theorem decode_rowWord {i : Instr} {base : CommandWord} {d : Byte} (hbase : base = i.opcode ++ 0#8)
    (h : FormatD i.opcode → d = i.operand) : decode (base ||| d.setWidth 11) = i := by
  rw [hbase, append_zero_or_setWidth, decode_opcode_append h]

theorem opcodeRows_mask_pattern : ∀ r ∈ opcodeRows, r.mask = 0x700 ∧ r.pattern = r.sample.opcode ++ 0#8 := by decide

/-- A row selects the words of its operation's code. -/
theorem OpcodeRow.selects_iff {r : OpcodeRow} (hr : r ∈ opcodeRows) {w : CommandWord} :
    r.selects w = true ↔ opOf w = r.sample.opcode := by
  obtain ⟨hmask, hpattern⟩ := opcodeRows_mask_pattern r hr
  rw [OpcodeRow.selects, beq_iff_eq, hmask, hpattern, and_rowMask]
  exact BitVec.append_left_inj 0#8

theorem exists_row_of_opcode : ∀ op : BitVec 3, ∃ r ∈ opcodeRows, op = r.sample.opcode := by decide

theorem row_eq_of_opcode_eq : ∀ r ∈ opcodeRows, ∀ r' ∈ opcodeRows, r.sample.opcode = r'.sample.opcode → r' = r := by
  decide

/-- Settles O6: a row selects by the code alone, and each code is that of exactly one row. -/
theorem eachCommandWordSelectsExactlyOneRow : Obligations.EachCommandWordSelectsExactlyOneRow := by
  refine ⟨fun w => ?_, fun d => ?_⟩
  · obtain ⟨r, hr, hop⟩ := exists_row_of_opcode (opOf w)
    refine ⟨r, hr, (OpcodeRow.selects_iff hr).mpr hop, by rw [opcode_decode, hop], fun r' hr' hsel => ?_⟩
    exact row_eq_of_opcode_eq r hr r' hr' (hop.symm.trans ((OpcodeRow.selects_iff hr').mp hsel))
  · have formatN {i : Instr} {base : CommandWord} (hbase : base = i.opcode ++ 0#8) (h : ¬ FormatD i.opcode) :
        decode (base ||| d.setWidth 11) = i := decode_rowWord hbase fun hD => absurd hD h
    exact ⟨formatN rfl (by decide), formatN rfl (by decide), decode_rowWord (by simp [Instr.opcode]) fun _ => rfl,
      decode_rowWord (by simp [Instr.opcode]) fun _ => rfl, formatN rfl (by decide),
      decode_rowWord (by simp [Instr.opcode]) fun _ => rfl, formatN rfl (by decide), formatN rfl (by decide)⟩

/-- Settles O8: the nine numbers of R55's table and of R45's bound, decoded. -/
theorem exampleWordsDecodeAsWritten : Obligations.ExampleWordsDecodeAsWritten :=
  ⟨rfl, rfl, rfl, rfl, rfl, rfl, rfl, rfl, rfl⟩

/-! ### Ignored data bits -/

/-- In format N the word decodes alike at every `data`. -/
theorem decode_append_of_not_formatD {op : BitVec 3} (h : ¬ FormatD op) (d d' : Byte) :
    decode (op ++ d) = decode (op ++ d') :=
  decode_eq_decode_iff.mpr ⟨by simp, fun hD => absurd (by simpa using hD) h⟩

/-- A step at a driven sample without reset is the operation on the pins, once the sample is used up. -/
theorem Machine.step_of_driven {s : State} {p : Pins} {rest : List Pins} (hd : s.driven = p :: rest)
    (hr : p.rst = false) : step s = exec p.instr s.advance := by
  obtain ⟨t, ht⟩ := step_answers_next s
  have hs : s.sample = p := State.sample_of_driven hd
  rw [ht, ← step_of_operation ht (by rw [hs, hr]), hs]

/-- Settles O9: the two samples decode alike, and the step uses either of them up. -/
theorem formatNIgnoresItsDataBits : Obligations.FormatNIgnoresItsDataBits := by
  refine ⟨fun s op d d' rest hop => ?_, rfl, rfl, rfl, rfl⟩
  have hN : ¬ FormatD op := by rcases hop with rfl | rfl | rfl | rfl | rfl <;> decide
  rw [step_of_driven rfl rfl, step_of_driven rfl rfl, Pins.instr, Pins.word, decode_append_of_not_formatD hN d d']
  rfl

end Sys2Proof
end

section
/-!
PROOFS. The statement on the assembler (30_encoding.md R55): a written line is one word, or two with a blank between,
and reading cuts it there.
-/

namespace Sys2Proof.Machine

/-! ### Bytes -/

theorem hexValue_hexChar : ∀ n : BitVec 4, hexValue (hexChar n) = some n := by decide

@[simp] theorem parseByte_printByte (b : Byte) : parseByte (printByte b) = some b := by
  have halves : b.extractLsb' 4 4 ++ b.extractLsb' 0 4 = b := BitVec.extractLsb'_append_extractLsb'
  simp only [printByte, parseByte, hexValue_hexChar, halves]

/-! ### Words -/

/-- A non-empty text of characters that neither end a word nor start a comment. -/
def IsWord (text : List Char) : Prop := text ≠ [] ∧ ∀ c ∈ text, c ≠ ' ' ∧ c ≠ '\t' ∧ c ≠ ';'

theorem IsWord.no_comment {text : List Char} (h : IsWord text) : ';' ∉ text := by
  obtain ⟨-, hchars⟩ := h
  intro hmem
  obtain ⟨-, -, hne⟩ := hchars ';' hmem
  exact hne rfl

theorem isWord_mnemonicText (i : Instr) : IsWord (mnemonicText i) := by
  cases i <;> simp [IsWord, mnemonicText]

theorem hexChar_in_word : ∀ n : BitVec 4, hexChar n ≠ ' ' ∧ hexChar n ≠ '\t' ∧ hexChar n ≠ ';' := by decide

theorem isWord_printByte (b : Byte) : IsWord (printByte b) := by
  simp [IsWord, printByte, hexChar_in_word]

/-- Reading adds the characters of a word to the word being read. -/
theorem words_append {text : List Char} (acc rest : List Char) (h : ∀ c ∈ text, c ≠ ' ' ∧ c ≠ '\t' ∧ c ≠ ';') :
    words acc (text ++ rest) = words (text.reverse ++ acc) rest := by
  induction text generalizing acc with
  | nil => rfl
  | cons c cs ih =>
    obtain ⟨⟨hblank, htab, -⟩, hcs⟩ := List.forall_mem_cons.mp h
    simp [words, hblank, htab, ih (c :: acc) hcs]

theorem words_of_isWord {m : List Char} (h : IsWord m) : words [] m = [m] := by
  obtain ⟨hne, hchars⟩ := h
  have read := words_append [] [] hchars
  simpa [words, hne] using read

theorem words_of_two {m o : List Char} (hm : IsWord m) (ho : IsWord o) : words [] (m ++ ' ' :: o) = [m, o] := by
  obtain ⟨hne, hchars⟩ := hm
  rw [words_append [] _ hchars]
  simp [words, hne, words_of_isWord ho]

/-! ### Comments -/

theorem stripComment_append {text : List Char} (rest : List Char) (h : ';' ∉ text) :
    stripComment (text ++ rest) = text ++ stripComment rest := by
  induction text with
  | nil => rfl
  | cons c cs ih =>
    rw [List.mem_cons, not_or] at h
    obtain ⟨hc, hcs⟩ := h
    simp [stripComment, Ne.symm hc, ih hcs]

/-- A comment is not read, and a text without `;` has none. -/
theorem stripComment_of_no_comment {text : List Char} (h : ';' ∉ text) :
    stripComment text = text ∧ ∀ comment, stripComment (text ++ ';' :: comment) = text :=
  ⟨by simpa [stripComment] using stripComment_append [] h,
    fun comment => by simp [stripComment_append _ h, stripComment]⟩

/-! ### Lines -/

/-- The written form of a line: its one word, or its mnemonic and its operand with a blank between (R46, R55). -/
theorem printLine_cases (l : Line) :
    (IsWord (printLine l) ∧ parseBare (printLine l) = .ok l)
    ∨ ∃ (m : List Char) (d : Byte),
        IsWord m ∧ printLine l = m ++ ' ' :: printByte d ∧ parseWithOperand m d = .ok l := by
  cases l with
  | reset => exact .inl ⟨by simp [IsWord, printLine], rfl⟩
  | op i =>
    have hm := isWord_mnemonicText i
    cases i with
    | nop | crcinit | fstart | fend | rsv7 => exact .inl ⟨hm, rfl⟩
    | crcbyte d | crcchk d | fbyte d => exact .inr ⟨_, d, hm, rfl, rfl⟩

theorem printLine_no_comment (l : Line) : ';' ∉ printLine l := by
  rcases printLine_cases l with ⟨hw, -⟩ | ⟨m, d, hm, hp, -⟩
  · exact hw.no_comment
  · simp [hp, hm.no_comment, (isWord_printByte d).no_comment]

/-- A text that is a written line, but for a comment, is read as that line. -/
theorem parseLine_of_stripComment {text : List Char} {l : Line} (h : stripComment text = printLine l) :
    parseLine text = .ok (some l) := by
  rcases printLine_cases l with ⟨hw, hl⟩ | ⟨m, d, hm, hp, hl⟩
  · simp only [parseLine, h, words_of_isWord hw, hl]
    rfl
  · simp only [parseLine, h, hp, words_of_two hm (isWord_printByte d), parseByte_printByte, hl]
    rfl

/-- Settles O10: the line is cut into the words it was written with; its pins are the fields of its word. -/
theorem assemblerReadsWhatItWrites : Obligations.AssemblerReadsWhatItWrites := by
  refine ⟨fun l comment => ?_, fun i => ⟨rfl, rfl⟩, rfl⟩
  obtain ⟨alone, commented⟩ := stripComment_of_no_comment (printLine_no_comment l)
  exact ⟨parseLine_of_stripComment alone, parseLine_of_stripComment (commented comment)⟩

end Sys2Proof.Machine
end

section
/-!
PROOFS. Runs that feed bytes: what they leave, byte by byte, in the generic checksum (40_crc8.md R69) and in an open
frame (41_frame.md R83), and with that the statement on the pseudo-instructions (30_encoding.md R56).
-/

namespace Sys2Proof

@[simp] theorem Instr.instr_pins (i : Instr) : i.pins.instr = i := decode_encode i

end Sys2Proof

namespace Sys2Proof.Machine

/-! ### Runs that feed bytes -/

/-- `Holds` speaks of the bytes that the operations `feed b` have handed in: each adds its byte, and neither the passing
edge nor an operation outside `writes` matters to it. -/
structure Collects (writes : Instr → Bool) (feed : Byte → Instr) (Holds : List Byte → State → Prop) : Prop where
  writes_feed (b : Byte) : writes (feed b) = true
  advance {bs : List Byte} {s : State} : Holds bs s → Holds bs s.advance
  keep {bs : List Byte} {i : Instr} {s t : State} : writes i = false → exec i s = .next t → Holds bs s → Holds bs t
  add {bs : List Byte} {b : Byte} {s t : State} : exec (feed b) s = .next t → Holds bs s → Holds (bs ++ [b]) t

/-- A run with driven pins begins with the operation on the first of them, where it is no reset. -/
theorem runEdges_cons {p : Pins} {pins rest : List Pins} {s t : State} (hd : s.driven = p :: pins ++ rest)
    (hr : p.rst = false) (h : runEdges (pins.length + 1) s = .next t) :
    ∃ u, exec p.instr s.advance = .next u ∧ u.driven = pins ++ rest ∧ runEdges pins.length u = .next t := by
  obtain ⟨u, hu⟩ := step_answers_next s
  rw [runEdges_succ_of_step _ hu] at h
  exact ⟨u, by rw [← step_of_driven hd hr, hu], by rw [step_driven hu, hd]; rfl, h⟩

/-- Over a run the bytes fed in it are added in order, whatever else is among them. -/
theorem Collects.run {writes : Instr → Bool} {feed : Byte → Instr} {Holds : List Byte → State → Prop}
    (c : Collects writes feed Holds) {pins rest : List Pins} {old new : List Byte} {s t : State}
    (hd : s.driven = pins ++ rest) (hr : ∀ p ∈ pins, p.rst = false)
    (hw : (pins.map Pins.instr).filter writes = new.map feed)
    (h : runEdges pins.length s = .next t) (hs : Holds old s) : Holds (old ++ new) t := by
  induction pins generalizing s old new with
  | nil =>
    obtain rfl : new = [] := by simpa using hw.symm
    cases h
    simpa using hs
  | cons p pins ih =>
    obtain ⟨hrp, hrs⟩ := List.forall_mem_cons.mp hr
    obtain ⟨u, hu, hdu, hut⟩ := runEdges_cons hd hrp h
    rw [List.map_cons] at hw
    cases hp : writes p.instr with
    | false =>
      rw [List.filter_cons_of_neg (by simp [hp])] at hw
      exact ih hdu hrs hw hut (c.keep hp hu (c.advance hs))
    | true =>
      rw [List.filter_cons_of_pos hp] at hw
      obtain ⟨b, bs, rfl, hb, hbs⟩ := List.map_eq_cons_iff.mp hw.symm
      rw [← hb] at hu
      simpa using ih hdu hrs hbs.symm hut (c.add hu (c.advance hs))

/-- The expansions of R56 are of one form: an operation that starts, one per byte, and one that ends. -/
theorem Collects.run_expansion {writes : Instr → Bool} {feed : Byte → Instr} {Holds : List Byte → State → Prop}
    (c : Collects writes feed Holds) {first last : Instr} {bs : List Byte} {rest : List Pins} {s : State}
    (start : ∀ {t}, exec first s.advance = .next t → Holds [] t)
    (hd : s.driven = (first :: (bs.map feed ++ [last])).map Instr.pins ++ rest) :
    ∃ u t, Holds bs u ∧ exec last u = .next t ∧ runEdges (bs.length + 2) s = .next t ∧ t.driven = rest := by
  obtain ⟨t, ht⟩ := runEdges_answers_next (bs.length + 2) s
  have fed : s.driven = first.pins :: ((bs.map feed).map Instr.pins ++ [last.pins]) ++ rest := by simpa using hd
  obtain ⟨u, hu, hdu, hut⟩ := runEdges_cons fed rfl (by simpa using ht)
  obtain ⟨v, hv⟩ := runEdges_answers_next ((bs.map feed).map Instr.pins).length u
  rw [List.append_assoc] at hdu
  have held : Holds ([] ++ bs) v := by
    refine c.run hdu (by simp [Instr.pins]) ?_ hv (start (by simpa using hu))
    have operations : ((bs.map feed).map Instr.pins).map Pins.instr = bs.map feed := by simp [Function.comp_def]
    rw [operations, List.filter_eq_self]
    simp [c.writes_feed]
  obtain ⟨x, hx, hdx, hxt⟩ := runEdges_cons (pins := []) (runEdges_driven hdu hv) rfl (runEdges_suffix hv hut)
  cases hxt
  exact ⟨v.advance, _, c.advance held, by simpa using hx, ht, hdx⟩

/-! ### The generic checksum -/

/-- CRC is what the bytes make of the initial value (R62, R69). -/
def State.ChecksumOf (bs : List Byte) (s : State) : Prop := s.crc = crcRun 0xFF bs

/-- R69: each CRCBYTE adds its byte to the checksum, and no operation that does not write CRC matters. -/
theorem State.checksumOf_collects :
    Collects Instr.writesCrc Instr.crcbyte fun bs s => s.ChecksumOf bs where
  writes_feed _ := rfl
  advance hs := hs
  keep hi h hs := (exec_crc_of_not_writesCrc h hi).trans hs
  add {bs b s t} h hs := by
    cases h
    rw [State.ChecksumOf, crcRun_append, ← hs]
    rfl

/-! ### An open frame -/

/-- The three bytes of a group by position (R75), 0x00 where the sequence does not reach. -/
def groupAt (bs : List Byte) (g : Fin 3) : Group :=
  ⟨bs.getD (3 * g.val) 0, bs.getD (3 * g.val + 1) 0, bs.getD (3 * g.val + 2) 0⟩

/-- The sequence reaches the end of the group, and the group verifies. -/
def groupVerified (bs : List Byte) (g : Fin 3) : Bool := decide (3 * g.val + 2 < bs.length) && (groupAt bs g).valid

theorem getD_concat (bs : List Byte) (d : Byte) (k : Nat) :
    (bs ++ [d]).getD k 0 = if k = bs.length then d else bs.getD k 0 := by
  rcases Nat.lt_trichotomy k bs.length with hk | rfl | hk
  · rw [List.getD_append _ _ _ _ hk, if_neg hk.ne]
  · rw [List.getD_append_right _ _ _ _ (Nat.le_refl _)]
    simp
  · rw [List.getD_eq_default _ _ (by simp; omega), List.getD_eq_default _ _ hk.le, if_neg hk.ne']

/-- One more byte is the byte of its position, in its group. -/
theorem groupAt_concat (bs : List Byte) (d : Byte) (g : Fin 3) :
    groupAt (bs ++ [d]) g =
      ⟨if 3 * g.val = bs.length then d else (groupAt bs g).msb,
        if 3 * g.val + 1 = bs.length then d else (groupAt bs g).lsb,
        if 3 * g.val + 2 = bs.length then d else (groupAt bs g).crc⟩ := by
  simp only [groupAt, getD_concat]

theorem word_groupAt_concat_of_ne {bs : List Byte} (d : Byte) {g : Fin 3} (hm : 3 * g.val ≠ bs.length)
    (hl : 3 * g.val + 1 ≠ bs.length) : (groupAt (bs ++ [d]) g).word = (groupAt bs g).word := by
  simp [groupAt_concat, Group.word, hm, hl]

theorem groupVerified_concat_of_ne {bs : List Byte} (d : Byte) {g : Fin 3} (hc : 3 * g.val + 2 ≠ bs.length) :
    groupVerified (bs ++ [d]) g = groupVerified bs g := by
  by_cases hlen : 3 * g.val + 2 < bs.length
  · have hm : 3 * g.val ≠ bs.length := by omega
    have hl : 3 * g.val + 1 ≠ bs.length := by omega
    simp [groupVerified, groupAt_concat, hm, hl, hc, hlen, Nat.lt_succ_of_lt hlen]
  · have hlen' : ¬ 3 * g.val + 2 < bs.length + 1 := by omega
    simp [groupVerified, hlen, hlen']

/-- The frame registers after FSTART and these bytes (R83): CNT counts them to saturation, W and OK hold the groups as
far as they came, FCRC the checksum of a group that is not at its end. -/
structure State.FrameOf (bs : List Byte) (s : State) : Prop where
  st : s.st = .recv
  cnt : s.cnt.val = min bs.length 10
  w (g : Fin 3) : s.w.get g = (groupAt bs g).word
  ok (g : Fin 3) : s.ok.get g = groupVerified bs g
  fcrc_msb (g : Fin 3) : bs.length = 3 * g.val + 1 → s.fcrc = crcByte 0xFF (groupAt bs g).msb
  fcrc_lsb (g : Fin 3) : bs.length = 3 * g.val + 2 → s.fcrc = crc8 (groupAt bs g).msb [(groupAt bs g).lsb]

theorem State.openFrame_frameOf (s : State) : s.openFrame.FrameOf [] where
  st := rfl
  cnt := rfl
  w g := by simp [groupAt, Group.word]; rfl
  ok g := by simp [groupVerified]
  fcrc_msb g h := by simp at h
  fcrc_lsb g h := by simp at h

theorem State.FrameOf.of_sameFrame {bs : List Byte} {s t : State} (hs : s.FrameOf bs) (h : s.SameFrame t) :
    t.FrameOf bs := by
  obtain ⟨hfcrc, hst, hcnt, hw, hok, -, -⟩ := h
  exact ⟨hst ▸ hs.st, hcnt ▸ hs.cnt, hw ▸ hs.w, hok ▸ hs.ok, hfcrc ▸ hs.fcrc_msb, hfcrc ▸ hs.fcrc_lsb⟩

/-- Where the frame is past its ninth byte, FBYTE counts only (R80). -/
theorem State.FrameOf.add_of_full {bs : List Byte} {d : Byte} {s : State} (hs : s.FrameOf bs)
    (hlen : 9 ≤ bs.length) : (s.setCnt 10).FrameOf (bs ++ [d]) where
  st := hs.st
  cnt := by simp; omega
  w g := by rw [word_groupAt_concat_of_ne d (by omega) (by omega)]; exact hs.w g
  ok g := by rw [groupVerified_concat_of_ne d (by omega)]; exact hs.ok g
  fcrc_msb g h := by simp at h; omega
  fcrc_lsb g h := by simp at h; omega

theorem State.FrameOf.nextCnt_val {bs : List Byte} {s : State} (d : Byte) (hs : s.FrameOf bs) :
    (nextCnt s.cnt).val = min (bs ++ [d]).length 10 := by
  rw [Machine.nextCnt_val, hs.cnt, List.length_append, List.length_singleton]
  omega

/-- An MSB starts its group's word and the checksum. -/
theorem State.FrameOf.add_msb {bs : List Byte} {d : Byte} {s : State} {g : Fin 3} (hs : s.FrameOf bs)
    (hlen : bs.length = 3 * g.val) : ((s.takeByte ⟨g, .msb⟩ d).setCnt (nextCnt s.cnt)).FrameOf (bs ++ [d]) where
  st := by simp [hs.st]
  cnt := hs.nextCnt_val d
  w h := by
    show (s.w.set g (setHi (s.w.get g) d)).get h = _
    by_cases hg : h = g
    · subst hg
      simp [groupAt_concat, Group.word, hs.w, setHi, hlen]
    · rw [PerGroup.get_set_of_ne _ _ hg, hs.w, word_groupAt_concat_of_ne d (by omega) (by omega)]
  ok h := by rw [groupVerified_concat_of_ne d (by omega)]; exact hs.ok h
  fcrc_msb h hh := by
    obtain rfl : h = g := by simp at hh; omega
    show crcByte 0xFF d = _
    simp [groupAt_concat, hlen]
  fcrc_lsb h hh := by simp at hh; omega

/-- An LSB completes its group's word and continues the checksum. -/
theorem State.FrameOf.add_lsb {bs : List Byte} {d : Byte} {s : State} {g : Fin 3} (hs : s.FrameOf bs)
    (hlen : bs.length = 3 * g.val + 1) :
    ((s.takeByte ⟨g, .lsb⟩ d).setCnt (nextCnt s.cnt)).FrameOf (bs ++ [d]) where
  st := by simp [hs.st]
  cnt := hs.nextCnt_val d
  w h := by
    show (s.w.set g (setLo (s.w.get g) d)).get h = _
    by_cases hg : h = g
    · subst hg
      simp [groupAt_concat, Group.word, hs.w, setLo, hlen]
    · rw [PerGroup.get_set_of_ne _ _ hg, hs.w, word_groupAt_concat_of_ne d (by omega) (by omega)]
  ok h := by rw [groupVerified_concat_of_ne d (by omega)]; exact hs.ok h
  fcrc_msb h hh := by simp at hh; omega
  fcrc_lsb h hh := by
    obtain rfl : h = g := by simp at hh; omega
    show crcByte s.fcrc d = _
    simp [groupAt_concat, hlen, hs.fcrc_msb h hlen, crc8_eq_run]

/-- A CRC byte gives its group's verdict. -/
theorem State.FrameOf.add_crc {bs : List Byte} {d : Byte} {s : State} {g : Fin 3} (hs : s.FrameOf bs)
    (hlen : bs.length = 3 * g.val + 2) :
    ((s.takeByte ⟨g, .crc⟩ d).setCnt (nextCnt s.cnt)).FrameOf (bs ++ [d]) where
  st := by simp [hs.st]
  cnt := hs.nextCnt_val d
  w h := by rw [word_groupAt_concat_of_ne d (by omega) (by omega)]; exact hs.w h
  ok h := by
    show (s.ok.set g (s.fcrc == d)).get h = _
    by_cases hg : h = g
    · subst hg
      simp [groupVerified, groupAt_concat, Group.valid, verifyCrc8, hlen, hs.fcrc_lsb h hlen]
    · rw [PerGroup.get_set_of_ne _ _ hg, hs.ok, groupVerified_concat_of_ne d (by omega)]
  fcrc_msb h hh := by simp at hh; omega
  fcrc_lsb h hh := by simp at hh; omega

theorem exists_position {n : Nat} (h : n < 9) :
    ∃ g : Fin 3, n = 3 * g.val ∨ n = 3 * g.val + 1 ∨ n = 3 * g.val + 2 :=
  ⟨⟨n / 3, by omega⟩, by simp only; omega⟩

/-- R83: each FBYTE adds its byte to the open frame, and no operation that is not a frame operation matters. -/
theorem State.frameOf_collects : Collects Instr.isFrameOp Instr.fbyte fun bs s => s.FrameOf bs where
  writes_feed _ := rfl
  advance hs := hs.of_sameFrame ⟨rfl, rfl, rfl, rfl, rfl, rfl, rfl⟩
  keep hi h hs := hs.of_sameFrame (exec_sameFrame_of_not_frameOp h hi)
  add {bs d s t} h hs := by
    have hcnt := hs.cnt
    by_cases hfull : 9 ≤ bs.length
    · rw [exec_fbyte_of_full d hs.st (by omega)] at h
      cases h
      exact hs.add_of_full hfull
    · obtain ⟨g, hg | hg | hg⟩ := exists_position (Nat.lt_of_not_le hfull)
      · rw [exec_fbyte_of_slot d hs.st (slotOf_msb (g := g) (by omega))] at h
        cases h
        exact hs.add_msb hg
      · rw [exec_fbyte_of_slot d hs.st (slotOf_lsb (g := g) (by omega))] at h
        cases h
        exact hs.add_lsb hg
      · rw [exec_fbyte_of_slot d hs.st (slotOf_crc (g := g) (by omega))] at h
        cases h
        exact hs.add_crc hg

/-! ### The outcome of a frame -/

theorem partition_of_length {raw : List Byte} (h : raw.length = 9) :
    partition raw = some ⟨groupAt raw 0, groupAt raw 1, groupAt raw 2⟩ := by
  match raw, h with
  | [m0, l0, c0, m1, l1, c1, m2, l2, c2], _ => rfl

theorem parseFrame_of_length_ne {raw : List Byte} (h : raw.length ≠ 9) : parseFrame raw = .malformedResponse := by
  have no_partition : partition raw = none := by
    unfold partition
    split
    · exact absurd rfl h
    · rfl
  simp [parseFrame, no_partition]

theorem parseFrame_of_failing {raw : List Byte} {g : Fin 3} (h : raw.length = 9) (hg : (groupAt raw g).valid = false)
    (hlow : ∀ g', g' < g → (groupAt raw g').valid = true) : parseFrame raw = .checksumMismatch g := by
  match g with
  | 0 => simp [parseFrame, partition_of_length h, hg]
  | 1 => simp [parseFrame, partition_of_length h, hg, hlow 0 (by decide)]
  | 2 => simp [parseFrame, partition_of_length h, hg, hlow 0 (by decide), hlow 1 (by decide)]

theorem parseFrame_of_verified {raw : List Byte} (h : raw.length = 9) (hok : ∀ g, (groupAt raw g).valid = true) :
    parseFrame raw = .words (groupAt raw 0).word (groupAt raw 1).word (groupAt raw 2).word := by
  simp [parseFrame, partition_of_length h, hok]

theorem State.FrameOf.cnt_eq_nine_iff {bs : List Byte} {s : State} (hs : s.FrameOf bs) :
    s.cnt = 9 ↔ bs.length = 9 := by
  rw [Fin.ext_iff, hs.cnt]
  show min bs.length 10 = 9 ↔ _
  omega

/-- CNT, OK and W hold the outcome that `parse_frame` gives of the bytes (R83). -/
theorem State.FrameOf.standingResult {bs : List Byte} {s : State} (hs : s.FrameOf bs) :
    s.standingResult = parseFrame bs := by
  by_cases hlen : bs.length = 9
  · have hcnt := hs.cnt_eq_nine_iff.mpr hlen
    have hok (g : Fin 3) : s.ok.get g = (groupAt bs g).valid := by
      have whole : 3 * g.val + 2 < bs.length := by omega
      simp [hs.ok, groupVerified, whole]
    cases hlow : lowestFailing s.ok with
    | some g =>
      obtain ⟨failing, below⟩ := lowestFailing_eq_some.mp hlow
      simp only [hok] at failing below
      rw [State.standingResult_of_failing hcnt hlow, parseFrame_of_failing hlen failing below]
    | none =>
      have verified := lowestFailing_eq_none.mp hlow
      simp only [hok] at verified
      rw [State.standingResult_of_verified hcnt hlow, parseFrame_of_verified hlen verified, hs.w, hs.w, hs.w]
  · rw [State.standingResult_of_cnt_ne (mt hs.cnt_eq_nine_iff.mp hlen), parseFrame_of_length_ne hlen]

/-- FEND in an open frame shows R82's row for the outcome of its bytes. -/
theorem State.FrameOf.ports_of_fend {bs : List Byte} {s t : State} (hs : s.FrameOf bs)
    (h : exec .fend s = .next t) : t.outputs.frame = (parseFrame bs).ports := by
  rw [exec_fend_of_recv hs.st] at h
  cases h
  have same : (s.setSt .done).judgeFrame.standingResult = s.standingResult := by simp [State.standingResult]
  rw [(State.judgeFrame_verdict _).ports (by simp), same, hs.standingResult]

/-! ### The pseudo-instructions -/

/-- Settles O40: both expansions feed bytes between two operations; the last one compares, or ends the frame. -/
theorem pseudoInstructionsComputeTheDocument : Obligations.PseudoInstructionsComputeTheDocument := by
  refine ⟨fun s b bs e rest => ⟨rfl, fun hd => ?_⟩, fun s bs rest => ⟨rfl, fun hd => ?_⟩⟩
  · have start {t : State} (h : exec .crcinit s.advance = .next t) : t.ChecksumOf [] := by cases h; rfl
    obtain ⟨u, t, hu, ht, hrun, hrest⟩ := State.checksumOf_collects.run_expansion start hd
    cases ht
    have hcrc : u.crc = crc8 b bs := hu
    refine ⟨_, hrun, hrest, ?_, hcrc⟩
    show (u.crc == e) = _
    rw [hcrc, verifyCrc8]
  · have start {t : State} (h : exec .fstart s.advance = .next t) : t.FrameOf [] := by
      cases h
      exact State.openFrame_frameOf _
    obtain ⟨u, t, hu, ht, hrun, hrest⟩ := State.frameOf_collects.run_expansion start hd
    exact ⟨t, hrun, hrest, hu.ports_of_fend ht⟩

end Sys2Proof.Machine
end

section
/-!
PROOFS. The statements on the arithmetic of the checksum (40_crc8.md R60 to R65): the bit step is a shift that feeds
bit 7 back, so it is linear over XOR and loses nothing, and both pass on to eight bit steps, to the byte step, and to
the checksum of a group.
-/

namespace Sys2Proof.Machine

/-! ### The bit step -/

theorem shl8_eq_shiftLeft (v : Byte) : shl8 v = v <<< 1 := by
  rw [BitVec.shiftLeft_eq_concat_of_lt (by decide : 1 < 8)]
  rfl

/-- The bit step by bits: each bit moves up by one, and bit 7 goes where the polynomial has a one. -/
theorem getLsbD_crcBit (c : Byte) (i : Nat) :
    (crcBit c).getLsbD i = xor ((c <<< 1).getLsbD i) (c.getLsbD 7 && (0x31#8).getLsbD i) := by
  rw [crcBit_eq, shl8_eq_shiftLeft, BitVec.getLsbD_xor]
  cases c.getLsbD 7 <;> simp

theorem crcBit_bit_zero (c : Byte) : (crcBit c).getLsbD 0 = c.getLsbD 7 := by
  rw [getLsbD_crcBit]
  simp

/-- Settles O11: the two branches of the bit step, and the bits one by one. -/
theorem bitStepShiftsAndXorsThePolynomial : Obligations.BitStepShiftsAndXorsThePolynomial := by
  intro c
  refine ⟨fun hset => ?_, fun hclear => ?_, ?_⟩
  · rw [crcBit_eq, shl8_eq_shiftLeft, hset, if_pos rfl]
    rfl
  · rw [crcBit_eq, shl8_eq_shiftLeft, hclear, if_neg (by decide), BitVec.xor_zero]
  · simp only [getLsbD_crcBit]
    simp

/-! ### Linearity -/

theorem crcBit_xor (a b : Byte) : crcBit (a ^^^ b) = crcBit a ^^^ crcBit b := by
  apply BitVec.eq_of_getLsbD_eq
  intro i hi
  simp only [getLsbD_crcBit, BitVec.getLsbD_xor, BitVec.shiftLeft_xor_distrib, Bool.and_xor_distrib_right,
    Bool.xor_assoc, Bool.xor_left_comm]

theorem crcBits_xor (n : Nat) (a b : Byte) : crcBits n (a ^^^ b) = crcBits n a ^^^ crcBits n b := by
  induction n generalizing a b with
  | zero => rfl
  | succ n ih => rw [crcBits, crcBit_xor, ih, crcBits, crcBits]

theorem crcT_xor (a b : Byte) : crcT (a ^^^ b) = crcT a ^^^ crcT b := crcBits_xor 8 a b

theorem crcT_zero : crcT 0x00 = 0x00 := by
  calc crcT 0x00 = crcT (0x00 ^^^ 0x00) := congrArg crcT BitVec.xor_self.symm
    _ = crcT 0x00 ^^^ crcT 0x00 := crcT_xor 0x00 0x00
    _ = 0x00 := BitVec.xor_self

/-- Settles O13: bits move alike in a sum, and so do eight steps. -/
theorem bitStepsAreLinearOverXor : Obligations.BitStepsAreLinearOverXor :=
  fun a b => ⟨crcBit_xor a b, crcT_xor a b, crcT_zero⟩

/-! ### Bijections -/

/-- R65 (b): bit 0 of the result is the old bit 7, and with that the other bits give back the old bits 0 to 6. -/
theorem crcBit_injective : Function.Injective crcBit := by
  intro a b h
  have top : a.getLsbD 7 = b.getLsbD 7 := by rw [← crcBit_bit_zero, h, crcBit_bit_zero]
  have shifted : a <<< 1 = b <<< 1 := by
    rw [crcBit_eq, crcBit_eq, top, BitVec.xor_left_inj, shl8_eq_shiftLeft, shl8_eq_shiftLeft] at h
    exact h
  apply BitVec.eq_of_getLsbD_eq
  intro i hi
  obtain rfl | h7 : i = 7 ∨ i < 7 := by omega
  · exact top
  · have low : i + 1 < 8 := by omega
    simpa [hi, low] using congrArg (·.getLsbD (i + 1)) shifted

theorem crcBit_bijective : Function.Bijective crcBit := by
  have : Finite Byte := Finite.of_injective BitVec.toFin fun _ _ => BitVec.eq_of_toFin_eq
  exact Finite.injective_iff_bijective.mp crcBit_injective

theorem crcBits_bijective (n : Nat) : Function.Bijective (crcBits n) := by
  induction n with
  | zero => exact Function.bijective_id
  | succ n ih => exact ih.comp crcBit_bijective

theorem crcT_bijective : Function.Bijective crcT := crcBits_bijective 8

theorem xor_left_bijective (c : Byte) : Function.Bijective (c ^^^ ·) := by
  have twice : Function.Involutive (c ^^^ ·) := fun b => by
    show c ^^^ (c ^^^ b) = b
    rw [← BitVec.xor_assoc, BitVec.xor_self, BitVec.zero_xor]
  exact twice.bijective

theorem crcByte_comm (c b : Byte) : crcByte c b = crcByte b c := by rw [crcByte, BitVec.xor_comm, crcByte]

theorem crcByte_bijective_byte (c : Byte) : Function.Bijective (crcByte c) :=
  crcT_bijective.comp (xor_left_bijective c)

theorem crcByte_bijective_register (b : Byte) : Function.Bijective fun c => crcByte c b := by
  simpa only [crcByte_comm _ b] using crcByte_bijective_byte b

/-- Settles O14: the bit step loses no bit; the others are compositions of it with XORs by a fixed byte. -/
theorem checksumStepsAreBijections : Obligations.ChecksumStepsAreBijections :=
  ⟨crcBit_bijective, crcT_bijective, crcByte_bijective_byte, crcByte_bijective_register⟩

/-! ### Sequences and their residue -/

theorem crc8_append_singleton (b x : Byte) (bs : List Byte) : crc8 b (bs ++ [x]) = crcByte (crc8 b bs) x := by
  rw [crc8, crcRun_append, ← crc8, crcRun_cons, crcRun_nil]

/-- R61's example. -/
theorem crcByte_example : crcByte 0xFF 0xBE = 0x0C := by decide

/-- R62's example, one byte step after R61's. -/
theorem crc8_example : crc8 0xBE [0xEF] = 0x92 := by
  calc crc8 0xBE [0xEF] = crcByte (crcByte 0xFF 0xBE) 0xEF := crc8_append_singleton 0xBE 0xEF []
    _ = crcByte 0x0C 0xEF := by rw [crcByte_example]
    _ = 0x92 := by decide

/-- Settles O12: the definitions, and the recurrence at the end of the sequence. -/
theorem checksumTakesOneByteStepPerByte : Obligations.ChecksumTakesOneByteStepPerByte :=
  ⟨fun _ _ => rfl, fun _ => rfl, crc8_append_singleton, crcByte_example, crc8_example⟩

/-- R65 (c): `T` is a bijection that fixes 0, so only equal bytes leave a zero register. -/
theorem crcByte_eq_zero_iff (c e : Byte) : crcByte c e = 0x00 ↔ e = c := by
  calc crcT (c ^^^ e) = 0x00 ↔ c ^^^ e = 0x00 := crcT_bijective.injective.eq_iff' crcT_zero
    _ ↔ c = e := BitVec.xor_eq_zero_iff
    _ ↔ e = c := eq_comm

theorem verifyCrc8_iff (b : Byte) (bs : List Byte) (e : Byte) : verifyCrc8 b bs e = true ↔ crc8 b bs = e := beq_iff_eq

/-- Settles O15: appending the expected checksum is one byte step more. -/
theorem residueIsZeroExactlyWhenVerified : Obligations.ResidueIsZeroExactlyWhenVerified := by
  refine ⟨crcByte_eq_zero_iff, fun b bs e => ?_, fun b bs => (verifyCrc8_iff b bs _).mpr rfl⟩
  rw [verifyCrc8_iff, crc8_append_singleton, crcByte_eq_zero_iff, eq_comm]

/-! ### One corrupted byte -/

theorem crc8_pair_eq_iff_lsb (m l l' : Byte) : crc8 m [l] = crc8 m [l'] ↔ l = l' :=
  (crcByte_bijective_byte (crcByte 0xFF m)).injective.eq_iff

theorem crc8_pair_eq_iff_msb (m m' l : Byte) : crc8 m [l] = crc8 m' [l] ↔ m = m' :=
  calc crcByte (crcByte 0xFF m) l = crcByte (crcByte 0xFF m') l
    _ ↔ crcByte 0xFF m = crcByte 0xFF m' := (crcByte_bijective_register l).injective.eq_iff
    _ ↔ m = m' := (crcByte_bijective_byte 0xFF).injective.eq_iff

theorem hi_xor (v w : Word) : hi (v ^^^ w) = hi v ^^^ hi w := BitVec.extractLsb'_xor

theorem lo_xor (v w : Word) : lo (v ^^^ w) = lo v ^^^ lo w := BitVec.extractLsb'_xor

/-- A single bit lies in one byte of the word. -/
theorem hi_lo_of_bit : ∀ k : Fin 16,
    (hi (1#16 <<< k.val) = 0#8 ∧ lo (1#16 <<< k.val) ≠ 0#8)
    ∨ (hi (1#16 <<< k.val) ≠ 0#8 ∧ lo (1#16 <<< k.val) = 0#8) := by decide

theorem xor_ne_self {x : Byte} (a : Byte) (h : x ≠ 0#8) : a ^^^ x ≠ a := fun ha =>
  h ((BitVec.xor_right_inj a).mp (ha.trans BitVec.xor_zero.symm))

/-- R65 (f): a change of the word confined to one of its bytes changes its checksum. -/
theorem crc8_word_ne_of_one_byte {w x : Word} (h : (hi x = 0#8 ∧ lo x ≠ 0#8) ∨ (hi x ≠ 0#8 ∧ lo x = 0#8)) :
    crc8 (hi (w ^^^ x)) [lo (w ^^^ x)] ≠ crc8 (hi w) [lo w] := by
  rw [hi_xor, lo_xor]
  rcases h with ⟨hhi, hlo⟩ | ⟨hhi, hlo⟩
  · rw [hhi, BitVec.xor_zero]
    exact mt (crc8_pair_eq_iff_lsb _ _ _).mp (xor_ne_self _ hlo)
  · rw [hlo, BitVec.xor_zero]
    exact mt (crc8_pair_eq_iff_msb _ _ _).mp (xor_ne_self _ hhi)

theorem Group.valid_iff (g : Group) : g.valid = true ↔ crc8 g.msb [g.lsb] = g.crc := verifyCrc8_iff _ _ _

/-- Settles O16: a flipped bit is a change of one byte, and a changed byte moves one side of the group's equation. -/
theorem oneByteCorruptionIsDetected : Obligations.OneByteCorruptionIsDetected := by
  refine ⟨fun w k => crc8_word_ne_of_one_byte (hi_lo_of_bit k), fun g x valid => ?_⟩
  rw [Group.valid_iff] at valid
  simp only [← Bool.not_eq_true, Group.valid_iff, ← valid]
  refine ⟨fun hx => ?_, fun hx => ?_, fun hx => ?_⟩
  · rwa [crc8_pair_eq_iff_msb]
  · rwa [crc8_pair_eq_iff_lsb]
  · exact valid ▸ hx.symm

end Sys2Proof.Machine
end

section
/-!
PROOFS. The statements on CRCINIT, CRCBYTE and CRCCHK (40_crc8.md R66 to R69): each by its equation, then a run of them
with other operations in between.
-/

namespace Sys2Proof.Machine

/-! ### The three operations -/

/-- Settles O20: the row of CRCINIT is format N, and its equation is R66's pseudocode. -/
theorem crcinitStartsAChecksum : Obligations.CrcinitStartsAChecksum := fun s _ =>
  ⟨decode_rowWord rfl fun hD => absurd hD (by decide), rfl, exec_crcinit s⟩

/-- Settles O21: the row of CRCBYTE is format D, and its equation is R67's pseudocode. -/
theorem crcbyteAddsOneByte : Obligations.CrcbyteAddsOneByte := fun s d =>
  ⟨decode_rowWord (by simp [Instr.opcode]) fun _ => rfl, exec_crcbyte d s, (crcByte_eq_zero_iff d d).mpr rfl⟩

/-- Settles O22: the row of CRCCHK is format D, and MATCH is the comparison. -/
theorem crcchkComparesTheChecksum : Obligations.CrcchkComparesTheChecksum := by
  refine fun s e => ⟨decode_rowWord (by simp [Instr.opcode]) fun _ => rfl, fun heq => ?_, fun hne => ?_⟩
  · rw [exec_crcchk, beq_iff_eq.mpr heq]
    rfl
  · rw [exec_crcchk, beq_false_of_ne hne]
    rfl

/-! ### A run with other operations in between -/

/-- A reset step and a CRCINIT both start a checksum of no bytes. -/
theorem step_starts_checksum {p : Pins} {rest : List Pins} {s t : State} (hd : s.driven = p :: rest)
    (hp : p.rst = true ∨ p.instr = .crcinit) (h : step s = .next t) : t.ChecksumOf [] := by
  cases hr : p.rst with
  | true =>
    rw [step_of_reset h (by rw [State.sample_of_driven hd, hr])]
    rfl
  | false =>
    have hi : p.instr = .crcinit := hp.resolve_left (by simp [hr])
    rw [step_of_driven hd hr, hi] at h
    cases h
    rfl

/-- Operations that do not write MATCH leave the checksum alone over a run. -/
theorem runEdges_keeps_crc {pins rest : List Pins} {s t : State} (hd : s.driven = pins ++ rest)
    (hq : ∀ r ∈ pins, r.LeavesMatch) (h : runEdges pins.length s = .next t) : t.crc = s.crc := by
  refine runEdges_keeps (P := fun u => u.crc = s.crc) (fun hu huv hus => ?_) hd hq h rfl
  obtain ⟨hr, hi⟩ := hu
  obtain ⟨hcrc, -⟩ := exec_sameGeneric_of_not_writesMatch (step_of_operation huv hr) hi
  exact hcrc.symm.trans hus

/-- The next operation that writes MATCH being a CRCCHK, it compares with CRC as it stood before the run. -/
theorem runEdges_crcchk {more rest : List Pins} {q : Pins} {e : Byte} {s : State} (hd : s.driven = more ++ q :: rest)
    (hmore : ∀ r ∈ more, r.LeavesMatch) (hr : q.rst = false) (hi : q.instr = .crcchk e) :
    ∃ u, runEdges (more.length + 1) s = .next u ∧ u.matchFlag = (s.crc == e) := by
  obtain ⟨t, ht⟩ := runEdges_answers_next more.length s
  have hstep : step t = exec (.crcchk e) t.advance := by rw [step_of_driven (runEdges_driven hd ht) hr, hi]
  rw [runEdges_add_of_run 1 ht, runEdges_succ_of_step 0 hstep, runEdges_zero]
  refine ⟨_, rfl, ?_⟩
  show (t.crc == e) = _
  rw [runEdges_keeps_crc hd hmore ht]

/-- Settles O38: the first step starts a checksum of no bytes, the run adds the bytes in order, and the CRCCHK compares
with what they made. -/
theorem genericRunComputesTheChecksum : Obligations.GenericRunComputesTheChecksum := by
  intro s p pins rest bs hd hp hr hw
  obtain ⟨u, hu⟩ := step_answers_next s
  have hdu : u.driven = pins ++ rest := by rw [step_driven hu, hd]; rfl
  obtain ⟨t, ht⟩ := runEdges_answers_next pins.length u
  have hdt : t.driven = rest := runEdges_driven hdu ht
  have held : t.ChecksumOf ([] ++ bs) :=
    State.checksumOf_collects.run hdu hr hw ht (step_starts_checksum hd hp hu)
  refine ⟨t, (runEdges_succ_of_step _ hu).trans ht, hdt, ?_, ?_⟩
  · rintro rfl
    exact held
  · rintro b bs' rfl
    have hcrc : t.crc = crc8 b bs' := held
    refine ⟨hcrc, fun more rest' q e hrest hmore hq hi => ?_⟩
    obtain ⟨v, hv, hmatch⟩ := runEdges_crcchk (hdt.trans hrest) hmore hq hi
    exact ⟨v, hv, by rw [verifyCrc8, ← hcrc]; exact hmatch⟩

end Sys2Proof.Machine
end

section
/-!
PROOFS. The statements on FSTART, FBYTE and FEND (41_frame.md R79 to R81, R84): each by its equation, then what every
operation and every step does to ST.
-/

namespace Sys2Proof.Machine

/-! ### FSTART -/

/-- Settles O23: the row of FSTART is format N, an opened frame shows nothing on the ports, and opening it again writes
the same values. -/
theorem fstartOpensAFreshFrame : Obligations.FstartOpensAFreshFrame := fun s _ =>
  ⟨decode_rowWord rfl fun hD => absurd hD (by decide), rfl, s.openFrame, exec_fstart s, rfl,
    State.ports_of_not_done (by simp) rfl rfl, exec_again_of_idempotent (.inr (.inr (.inl rfl))) (exec_fstart s)⟩

/-! ### FBYTE -/

theorem nextCnt_val_of_lt {c : Fin 11} (h : c.val < 9) : (nextCnt c).val = c.val + 1 := by
  rw [nextCnt_val]
  omega

theorem exec_fbyte_msb {s : State} {g : Fin 3} (d : Byte) (hr : s.st = .recv) (hc : s.cnt.val = 3 * g.val) :
    exec (.fbyte d) s = .next
      (((s.setW (s.w.set g (setHi (s.w.get g) d))).setFcrc (crcByte 0xFF d)).setCnt (nextCnt s.cnt)) :=
  exec_fbyte_of_slot d hr (slotOf_msb hc)

theorem exec_fbyte_lsb {s : State} {g : Fin 3} (d : Byte) (hr : s.st = .recv) (hc : s.cnt.val = 3 * g.val + 1) :
    exec (.fbyte d) s = .next
      (((s.setW (s.w.set g (setLo (s.w.get g) d))).setFcrc (crcByte s.fcrc d)).setCnt (nextCnt s.cnt)) :=
  exec_fbyte_of_slot d hr (slotOf_lsb hc)

theorem exec_fbyte_crc {s : State} {g : Fin 3} (d : Byte) (hr : s.st = .recv) (hc : s.cnt.val = 3 * g.val + 2) :
    exec (.fbyte d) s = .next ((s.setOk (s.ok.set g (s.fcrc == d))).setCnt (nextCnt s.cnt)) :=
  exec_fbyte_of_slot d hr (slotOf_crc hc)

/-- Settles O24: one equation per branch of R80, and what each writes is read back by group and by half. -/
theorem fbyteTakesTheNextFrameByte : Obligations.FbyteTakesTheNextFrameByte := by
  intro s d
  refine ⟨decode_rowWord (by simp [Instr.opcode]) fun _ => rfl, exec_fbyte_of_not_recv d, exec_fbyte_of_full d,
    fun g hr => ⟨fun hc => ?_, fun hc => ?_, fun hc => ?_⟩⟩
  · exact ⟨_, exec_fbyte_msb d hr hc, rfl, nextCnt_val_of_lt (by omega), by simp, by simp,
      fun h hg => PerGroup.get_set_of_ne _ _ hg⟩
  · exact ⟨_, exec_fbyte_lsb d hr hc, rfl, nextCnt_val_of_lt (by omega), by simp, by simp,
      fun h hg => PerGroup.get_set_of_ne _ _ hg⟩
  · exact ⟨_, exec_fbyte_crc d hr hc, rfl, nextCnt_val_of_lt (by omega), by simp,
      fun h hg => PerGroup.get_set_of_ne _ _ hg⟩

/-! ### FEND -/

theorem State.judgeFrame_of_cnt_ne {s : State} (hc : s.cnt ≠ 9) : s.judgeFrame = s.setErr .malformedResponse 0 :=
  if_neg hc

theorem State.judgeFrame_of_failing {s : State} {g : Fin 3} (hc : s.cnt = 9) (hg : lowestFailing s.ok = some g) :
    s.judgeFrame = s.setErr .checksumMismatch g := by
  rw [State.judgeFrame, if_pos hc, hg]
  rfl

theorem State.judgeFrame_of_verified {s : State} (hc : s.cnt = 9) (hok : lowestFailing s.ok = none) :
    s.judgeFrame = s.setErr .none 0 := by
  rw [State.judgeFrame, if_pos hc, hok]
  rfl

/-- Settles O25: FEND in RECV judges the closed frame, the length before the groups, and the ports show the verdict. -/
theorem fendClosesAndJudgesTheFrame : Obligations.FendClosesAndJudgesTheFrame := by
  intro s d
  refine ⟨decode_rowWord rfl fun hD => absurd hD (by decide), rfl, exec_fend_of_not_recv, fun hr => ?_⟩
  rw [exec_fend_of_recv hr]
  refine ⟨fun hc => ?_, fun g hc hg hlow => ?_, fun hc hok => ?_, _, rfl, ?_, ?_⟩
  · rw [State.judgeFrame_of_cnt_ne (s := s.setSt .done) fun h => hc (congrArg Fin.val h)]
    rfl
  · rw [State.judgeFrame_of_failing (s := s.setSt .done) (Fin.ext hc) (lowestFailing_eq_some.mpr ⟨hg, hlow⟩)]
    rfl
  · rw [State.judgeFrame_of_verified (s := s.setSt .done) (Fin.ext hc) (lowestFailing_eq_none.mpr hok)]
    rfl
  · simp [State.outputs]
  · rw [(State.judgeFrame_verdict _).validO_iff (by simp), State.judgeFrame_cnt, State.judgeFrame_ok,
      lowestFailing_eq_none]
    exact and_congr_left' Fin.ext_iff

/-! ### The transitions of ST -/

/-- FBYTE and FEND outside RECV raise a SequenceFault and do nothing else. -/
theorem exec_outside_recv {i : Instr} {s : State} (hs : s.st ≠ .recv) (hi : i = .fend ∨ ∃ d, i = .fbyte d) :
    exec i s = .next (s.setFault (withSeq s.fault)) := by
  rcases hi with rfl | ⟨d, rfl⟩
  · exact exec_fend_of_not_recv hs
  · exact exec_fbyte_of_not_recv d hs

/-- FEND closes an open frame, and keeps ST otherwise. -/
theorem exec_fend_st {s t : State} (h : exec .fend s = .next t) : t.st = if s.st = .recv then .done else s.st := by
  rcases exec_fend_cases h with ⟨hr, rfl⟩ | ⟨hr, rfl⟩ <;> simp [hr]

/-- The operations that write ST are FSTART and FEND. -/
theorem exec_keeps_st {i : Instr} {s t : State} (h : exec i s = .next t) (hs : i ≠ .fstart) (he : i ≠ .fend) :
    t.st = s.st := by
  obtain ⟨hst, -⟩ := exec_keeps_frame_status h hs fun ⟨hi, _⟩ => he hi
  exact hst

/-- No operation enters IDLE, and only FSTART leaves it. -/
theorem exec_idle {i : Instr} {s t : State} (h : exec i s = .next t) :
    (t.st = .idle → s.st = .idle) ∧ (s.st = .idle → i ≠ .fstart → t.st = .idle) := by
  by_cases hs : i = .fstart
  · subst hs
    cases h
    simp
  by_cases he : i = .fend
  · subst he
    rw [exec_fend_st h]
    cases s.st <;> simp
  · rw [exec_keeps_st h hs he]
    exact ⟨id, fun hst _ => hst⟩

/-- Settles O29: a reset step gives IDLE; any other step is an operation, and R84's rows are those of the operations. -/
theorem frameStateMovesAsTabulated : Obligations.FrameStateMovesAsTabulated := by
  intro s t h
  cases hr : s.sample.rst with
  | true =>
    have idle : t.st = .idle := by rw [step_of_reset h hr]; rfl
    exact ⟨fun _ => idle, fun hf => absurd hf (by decide), fun _ hne => absurd idle hne, fun _ _ => rfl⟩
  | false =>
    have he := step_of_operation h hr
    obtain ⟨idle_kept, idle_left⟩ := exec_idle he
    refine ⟨fun hf => absurd hf (by decide),
      fun _ => ⟨fun hi => ?_, fun hi => ?_, exec_keeps_st (s := s.advance) he, fun hs hi => ?_⟩,
      fun hs hne => ⟨rfl, by_contra fun hi => hne (idle_left hs hi)⟩, fun hs hidle => absurd (idle_kept hidle) hs⟩
    · rw [hi] at he
      cases he
      rfl
    · rw [hi] at he
      exact exec_fend_st (s := s.advance) he
    · rw [exec_outside_recv (s := s.advance) hs hi] at he
      cases he
      obtain ⟨seq_set, -⟩ := withSeq_bits s.fault
      exact ⟨seq_set, rfl, rfl, rfl, rfl, rfl, rfl, rfl⟩

end Sys2Proof.Machine
end

section
/-!
PROOFS. The statements on a frame as a byte sequence (41_frame.md R75 to R78), and on the run that feeds it (R83): the
frame operations of a run decide what it leaves in the frame registers.
-/

namespace Sys2Proof.Machine

/-! ### The groups of a sequence -/

/-- R78's word: the MSB shifted up by eight, with the LSB below it. -/
theorem mkWord_eq_shift_or (m l : Byte) : mkWord m l = m.setWidth 16 <<< 8 ||| l.setWidth 16 := by
  apply BitVec.eq_of_getLsbD_eq
  intro i hi
  rw [mkWord_bit]
  by_cases h8 : i < 8
  · simp [h8, hi]
  · simp [h8, hi, BitVec.getLsbD_of_ge l i (by omega)]

/-- Settles O17: `parse_frame` goes by the length and the groups, and a group verifies when its equation holds. -/
theorem parseFrameFollowsTheDocument : Obligations.ParseFrameFollowsTheDocument := by
  intro raw msb lsb crc hbytes
  have hgroup (g : Fin 3) : groupAt raw g = ⟨msb g, lsb g, crc g⟩ := by
    obtain ⟨hm, hl, hc⟩ := hbytes g
    rw [groupAt, hm, hl, hc]
  have hvalid (g : Fin 3) : (groupAt raw g).valid = true ↔ crc8 (msb g) [lsb g] = crc g := by
    rw [Group.valid_iff, hgroup]
  refine ⟨parseFrame_of_length_ne, fun hlen => ⟨fun g hg hlow => ?_, fun hall => ?_⟩⟩
  · have failing : (groupAt raw g).valid = false := Bool.eq_false_iff.mpr (mt (hvalid g).mp hg)
    exact parseFrame_of_failing hlen failing fun h hh => (hvalid h).mpr (hlow h hh)
  · rw [parseFrame_of_verified hlen fun g => (hvalid g).mpr (hall g)]
    simp only [hgroup, Group.word, mkWord_eq_shift_or]

/-- Only a frame of nine bytes whose groups all verify gives words (R77). -/
theorem verified_of_parseFrame_words {raw : List Byte} {w0 w1 w2 : Word} (h : parseFrame raw = .words w0 w1 w2) :
    raw.length = 9 ∧ ∀ g, (groupAt raw g).valid = true := by
  have hlen : raw.length = 9 := by
    by_contra hne
    rw [parseFrame_of_length_ne hne] at h
    cases h
  refine ⟨hlen, by_contra fun hbad => ?_⟩
  obtain ⟨g, lowest⟩ := exists_minimal_of_wellFoundedLT (fun g => ¬ (groupAt raw g).valid = true)
    (not_forall.mp hbad)
  have below (g' : Fin 3) (hg' : g' < g) : (groupAt raw g').valid = true := not_not.mp (lowest.not_prop_of_lt hg')
  rw [parseFrame_of_failing hlen (Bool.eq_false_iff.mpr lowest.prop) below] at h
  cases h

/-- A replaced byte is the byte of its position, in its group. -/
theorem groupAt_set {raw : List Byte} {n : Nat} (x : Byte) (g : Fin 3) (hn : n < raw.length) :
    groupAt (raw.set n x) g =
      ⟨if n = 3 * g.val then x else (groupAt raw g).msb,
        if n = 3 * g.val + 1 then x else (groupAt raw g).lsb,
        if n = 3 * g.val + 2 then x else (groupAt raw g).crc⟩ := by
  have hget (k : Nat) : (raw.set n x).getD k 0 = if n = k then x else raw.getD k 0 := by
    rw [List.getD_eq_getElem?_getD, List.getElem?_set, List.getD_eq_getElem?_getD]
    by_cases h : n = k
    · rw [if_pos h, if_pos hn, if_pos h]
      rfl
    · rw [if_neg h, if_neg h]
  simp only [groupAt, hget]

/-- R65 (f) by position: another byte at one of the three places makes a valid group invalid. -/
theorem valid_groupAt_set {raw : List Byte} {g : Fin 3} {k : Nat} {x : Byte} (hk : k < 3)
    (hn : 3 * g.val + k < raw.length) (valid : (groupAt raw g).valid = true) (hx : x ≠ raw.getD (3 * g.val + k) 0) :
    (groupAt (raw.set (3 * g.val + k) x) g).valid = false := by
  obtain ⟨-, detected⟩ := oneByteCorruptionIsDetected
  obtain ⟨msb_detected, lsb_detected, crc_detected⟩ := detected (groupAt raw g) x valid
  rw [groupAt_set x g hn]
  obtain rfl | rfl | rfl : k = 0 ∨ k = 1 ∨ k = 2 := by omega
  · simpa using msb_detected hx
  · simpa using lsb_detected hx
  · simpa using crc_detected hx

/-- A replaced byte leaves the other groups as they were. -/
theorem groupAt_set_of_ne {raw : List Byte} {g h : Fin 3} {k : Nat} (x : Byte) (hk : k < 3)
    (hn : 3 * g.val + k < raw.length) (hgh : h ≠ g) : groupAt (raw.set (3 * g.val + k) x) h = groupAt raw h := by
  have hne : h.val ≠ g.val := fun hv => hgh (Fin.ext hv)
  rw [groupAt_set x h hn, if_neg (by omega), if_neg (by omega), if_neg (by omega)]

/-- Settles O18: the group of the changed byte fails, and the groups below it still verify. -/
theorem oneCorruptedByteRejectsTheFrame : Obligations.OneCorruptedByteRejectsTheFrame := by
  intro raw w0 w1 w2 g k x hwords hk hx
  obtain ⟨hlen, valid⟩ := verified_of_parseFrame_words hwords
  have hn : 3 * g.val + k < raw.length := by omega
  refine parseFrame_of_failing (by rw [List.length_set, hlen]) (valid_groupAt_set hk hn (valid g) hx) fun h hh => ?_
  rw [groupAt_set_of_ne x hk hn hh.ne]
  exact valid h

/-! ### The frame operations of a run -/

theorem State.SameFrame.trans {s t u : State} (hst : s.SameFrame t) (htu : t.SameFrame u) : s.SameFrame u := by
  obtain ⟨hfcrc, hst, hcnt, hw, hok, herr, hegrp⟩ := hst
  simpa only [State.SameFrame, hfcrc, hst, hcnt, hw, hok, herr, hegrp] using htu

/-- The ports that speak of a frame are functions of the frame registers (R23). -/
theorem State.SameFrame.ports {s t : State} (h : s.SameFrame t) : s.outputs.frame = t.outputs.frame := by
  obtain ⟨-, hst, -, hw, -, herr, hegrp⟩ := h
  simp only [State.outputs, Outputs.frame, State.valid, hst, hw, herr, hegrp]

/-- `t` comes after `s` by a run over driven pins without a reset, whose frame operations are `ops`. -/
def State.RunsFrameOps (s : State) (ops : List Instr) (t : State) : Prop :=
  ∃ pins rest : List Pins, s.driven = pins ++ rest ∧ (∀ p ∈ pins, p.rst = false)
    ∧ (pins.map Pins.instr).filter Instr.isFrameOp = ops ∧ runEdges pins.length s = .next t

/-- A run is cut between any two of its frame operations. -/
theorem State.RunsFrameOps.cut {s t : State} {xs ys : List Instr} (h : s.RunsFrameOps (xs ++ ys) t) :
    ∃ u, s.RunsFrameOps xs u ∧ u.RunsFrameOps ys t := by
  obtain ⟨pins, rest, hd, hr, hops, hrun⟩ := h
  obtain ⟨instrs, instrs', hinstrs, hxs, hys⟩ := List.filter_eq_append_iff.mp hops
  obtain ⟨pre, post, rfl, rfl, rfl⟩ := List.map_eq_append_iff.mp hinstrs
  obtain ⟨hpre, hpost⟩ := List.forall_mem_append.mp hr
  rw [List.append_assoc] at hd
  obtain ⟨u, hu⟩ := runEdges_answers_next pre.length s
  exact ⟨u, ⟨pre, _, hd, hpre, hxs, hu⟩, post, rest, runEdges_driven hd hu, hpost, hys, runEdges_suffix hu hrun⟩

/-- A run without frame operations leaves the frame registers alone. -/
theorem State.RunsFrameOps.sameFrame {s t : State} (h : s.RunsFrameOps [] t) : s.SameFrame t := by
  obtain ⟨pins, rest, hd, hr, hops, hrun⟩ := h
  have quiet : ∀ p ∈ pins, p.rst = false ∧ p.instr.isFrameOp = false := fun p hp =>
    ⟨hr p hp, by simpa using List.filter_eq_nil_iff.mp hops _ (List.mem_map_of_mem hp)⟩
  refine runEdges_keeps (P := fun u => s.SameFrame u) (fun hu huv hsu => ?_) hd quiet hrun
    ⟨rfl, rfl, rfl, rfl, rfl, rfl, rfl⟩
  obtain ⟨hrst, hi⟩ := hu
  exact hsu.trans (exec_sameFrame_of_not_frameOp (s := State.advance _) (step_of_operation huv hrst) hi)

/-- A run with one frame operation is that operation, with runs before and after it that leave the frame registers
alone. -/
theorem State.RunsFrameOps.single {s t : State} {i : Instr} (h : s.RunsFrameOps [i] t) :
    ∃ u v, s.SameFrame u ∧ exec i u = .next v ∧ v.SameFrame t := by
  obtain ⟨pins, rest, hd, hr, hops, hrun⟩ := h
  obtain ⟨before, after, hinstrs, hbefore, -, hafter⟩ := List.filter_eq_cons_iff.mp hops
  obtain ⟨pre, post, rfl, rfl, hpost⟩ := List.map_eq_append_iff.mp hinstrs
  obtain ⟨p, post, rfl, rfl, rfl⟩ := List.map_eq_cons_iff.mp hpost
  obtain ⟨hr_pre, hr_post⟩ := List.forall_mem_append.mp hr
  obtain ⟨hr_p, hr_post⟩ := List.forall_mem_cons.mp hr_post
  rw [List.append_assoc] at hd
  obtain ⟨u, hu⟩ := runEdges_answers_next pre.length s
  obtain ⟨v, huv, hdv, hvt⟩ := runEdges_cons (runEdges_driven hd hu) hr_p (runEdges_suffix hu hrun)
  have to_u : s.RunsFrameOps [] u := ⟨pre, _, hd, hr_pre, List.filter_eq_nil_iff.mpr hbefore, hu⟩
  have from_v : v.RunsFrameOps [] t := ⟨post, rest, hdv, hr_post, hafter, hvt⟩
  exact ⟨u.advance, v, to_u.sameFrame, huv, from_v.sameFrame⟩

/-- FSTART and FBYTEs leave the frame of their bytes open (R83). -/
theorem State.RunsFrameOps.frameOf {s t : State} {bs : List Byte}
    (h : s.RunsFrameOps (.fstart :: bs.map .fbyte) t) : t.FrameOf bs := by
  obtain ⟨w, opened, pins, rest, hd, hr, hops, hrun⟩ := State.RunsFrameOps.cut (xs := [.fstart]) h
  obtain ⟨u, v, -, huv, hvw⟩ := opened.single
  cases huv
  exact State.frameOf_collects.run hd hr hops hrun (u.openFrame_frameOf.of_sameFrame hvw)

/-- A FEND after them shows R82's row for their bytes (R83). -/
theorem State.RunsFrameOps.ports {s t : State} {bs : List Byte}
    (h : s.RunsFrameOps (.fstart :: (bs.map .fbyte ++ [.fend])) t) :
    t.outputs.frame = (parseFrame bs).ports := by
  obtain ⟨u, fed, closed⟩ := State.RunsFrameOps.cut (xs := .fstart :: bs.map .fbyte) h
  obtain ⟨v, w, huv, hvw, hwt⟩ := closed.single
  rw [← hwt.ports]
  exact (fed.frameOf.of_sameFrame huv).ports_of_fend hvw

/-! ### W and OK of an open frame -/

theorem State.FrameOf.ok_of_whole_group {bs : List Byte} {s : State} {g : Fin 3} (hs : s.FrameOf bs)
    (hg : g.val < bs.length / 3) : s.ok.get g = (groupAt bs g).valid := by
  have whole : 3 * g.val + 2 < bs.length := by omega
  simp [hs.ok, groupVerified, whole]

theorem State.FrameOf.ok_of_partial_group {bs : List Byte} {s : State} {g : Fin 3} (hs : s.FrameOf bs)
    (hg : bs.length / 3 ≤ g.val) : s.ok.get g = false := by
  have partial_group : ¬ 3 * g.val + 2 < bs.length := by omega
  simp [hs.ok, groupVerified, partial_group]

/-- The halves of W are the group's bytes, 0x00 where the frame has not reached. -/
theorem State.FrameOf.hi_w {bs : List Byte} {s : State} (hs : s.FrameOf bs) (g : Fin 3) :
    hi (s.w.get g) = if 3 * g.val < bs.length then bs.getD (3 * g.val) 0 else 0 := by
  rw [hs.w, Group.word, hi_mkWord]
  split
  · rfl
  · next h => exact List.getD_eq_default _ _ (Nat.le_of_not_lt h)

theorem State.FrameOf.lo_w {bs : List Byte} {s : State} (hs : s.FrameOf bs) (g : Fin 3) :
    lo (s.w.get g) = if 3 * g.val + 1 < bs.length then bs.getD (3 * g.val + 1) 0 else 0 := by
  rw [hs.w, Group.word, lo_mkWord]
  split
  · rfl
  · next h => exact List.getD_eq_default _ _ (Nat.le_of_not_lt h)

/-- A group that the frame has not begun holds the word of FSTART. -/
theorem State.FrameOf.w_of_unbegun {bs : List Byte} {s : State} {g : Fin 3} (hs : s.FrameOf bs)
    (hg : bs.length / 3 < g.val) : s.w.get g = 0 := by
  have hhi : hi (s.w.get g) = 0 := by rw [hs.hi_w, if_neg (by omega)]
  have hlo : lo (s.w.get g) = 0 := by rw [hs.lo_w, if_neg (by omega)]
  rw [← mkWord_hi_lo (s.w.get g), hhi, hlo]
  rfl

/-- Settles O39: the run opens a frame and feeds it, so it leaves the frame of the bytes, and FEND judges that frame. -/
theorem frameRunShowsParseFrame : Obligations.FrameRunShowsParseFrame := by
  intro s pins rest bs hd hr
  obtain ⟨t, ht⟩ := runEdges_answers_next pins.length s
  refine ⟨fun hops => ?_, fun hops => ?_⟩
  · have run : s.RunsFrameOps (.fstart :: (bs.map .fbyte ++ [.fend])) t := ⟨pins, rest, hd, hr, hops, ht⟩
    exact ⟨t, ht, runEdges_driven hd ht, run.ports⟩
  · have run : s.RunsFrameOps (.fstart :: bs.map .fbyte) t := ⟨pins, rest, hd, hr, hops, ht⟩
    have fed := run.frameOf
    refine ⟨t, ht, runEdges_driven hd ht, fed.st, fed.cnt, fun _ g => ⟨fun hg => ?_, fun hg => ?_, fun hg => ?_⟩⟩
    · exact ⟨fed.w g, fed.ok_of_whole_group hg⟩
    · have msb_in : 3 * g.val < bs.length ↔ 1 ≤ bs.length % 3 := by omega
      have lsb_in : 3 * g.val + 1 < bs.length ↔ bs.length % 3 = 2 := by omega
      rw [fed.hi_w, fed.lo_w]
      simpa only [msb_in, lsb_in, true_and] using fed.ok_of_partial_group hg.ge
    · exact ⟨fed.w_of_unbegun hg, fed.ok_of_partial_group hg.le⟩
end Sys2Proof.Machine
end

section
/-!
PROOFS. The statements on NOP and RSV7 (42_misc_ops.md R86, R87): each by its equation.
-/

namespace Sys2Proof.Machine

/-! ### NOP -/

/-- Settles O19: the row of NOP is format N, and its equation answers the state itself. -/
theorem nopWritesNothing : Obligations.NopWritesNothing := fun s _ =>
  ⟨decode_rowWord rfl fun hD => absurd hD (by decide), rfl, exec_nop s⟩

/-! ### RSV7 -/

/-- ILL is sticky, so once RSV7 has set it a further RSV7 writes the same FAULT (R87). -/
theorem exec_rsv7_again {s t : State} (h : exec .rsv7 s = .next t) : exec .rsv7 t = .next t := by
  obtain ⟨-, -, again⟩ := withIll_bits s.fault
  cases h
  calc exec .rsv7 (s.setFault (withIll s.fault)) = .next (s.setFault (withIll (withIll s.fault))) := exec_rsv7 _
    _ = .next (s.setFault (withIll s.fault)) := by rw [again]

/-- Settles O26: the row of RSV7 is format N, and `withIll` sets ILL, keeps SEQ and writes nothing the second time. -/
theorem reservedCodeOnlySetsIll : Obligations.ReservedCodeOnlySetsIll := by
  intro s d
  obtain ⟨ill_set, seq_kept, -⟩ := withIll_bits s.fault
  exact ⟨decode_rowWord rfl fun hD => absurd hD (by decide), s.setFault (withIll s.fault), exec_rsv7 s, rfl, ill_set,
    seq_kept, exec_rsv7_again (exec_rsv7 s)⟩

end Sys2Proof.Machine
end

section
/-!
PROOFS. The statements on the environment (43_environment.md R90 to R99): the bytes of the command frames, the exact
conversions, and what a host measures over one transaction.
-/

namespace Sys2Proof.Env

open Sys2Proof.Machine

/-! ### What a host measures -/

/-- R99 and R93: ports that show three words are read as these words. -/
theorem readPorts_of_words {o : Outputs} {w0 w1 w2 : Word} (h : o.frame = (FrameResult.words w0 w1 w2).ports) :
    readPorts o = .words w0 w1 w2 := by
  cases o
  cases h
  rfl

/-- R93: ports that show another outcome than words give no measurement. -/
theorem measure_of_no_words {α : Type} (floatEval : Rat → α) {o : Outputs} {r : FrameResult} (h : o.frame = r.ports)
    (hr : ∀ w0 w1 w2, r ≠ .words w0 w1 w2) : measure floatEval (readPorts o) = none := by
  have not_valid : o.validO = false := by
    show o.frame.validO = false
    rw [h]
    cases r with
    | words w0 w1 w2 => exact absurd rfl (hr w0 w1 w2)
    | checksumMismatch g => rfl
    | malformedResponse => rfl
  simp [readPorts, not_valid, measure]

/-- The pins of a transaction are those of the pseudo-instruction FRAME (R56, R99), so the ports then show R82's row for
`parse_frame` of the response. -/
theorem runEdges_transaction {s : State} {response : List Byte} {rest : List Pins}
    (hd : s.driven = transactionPins response ++ rest) :
    ∃ t, runEdges (response.length + 2) s = .next t ∧ t.outputs.frame = (parseFrame response).ports := by
  obtain ⟨-, frame⟩ := pseudoInstructionsComputeTheDocument
  obtain ⟨-, shows⟩ := frame s response rest
  obtain ⟨t, run, -, ports⟩ := shows hd
  exact ⟨t, run, ports⟩

/-- The group that a sensor sends for a word (30_encoding.md R52): big-endian, with its checksum. -/
def sentGroup (w : Word) : Group := ⟨hi w, lo w, crc8 (hi w) [lo w]⟩

theorem sentGroup_valid (w : Word) : (sentGroup w).valid = true := (Group.valid_iff _).mpr rfl

theorem sentGroup_word (w : Word) : (sentGroup w).word = w := mkWord_hi_lo w

/-- The response of a sensor that sends three words (41_frame.md R75). -/
def sentResponse (w0 w1 w2 : Word) : List Byte :=
  [hi w0, lo w0, crc8 (hi w0) [lo w0], hi w1, lo w1, crc8 (hi w1) [lo w1], hi w2, lo w2, crc8 (hi w2) [lo w2]]

theorem partition_sentResponse (w0 w1 w2 : Word) :
    partition (sentResponse w0 w1 w2) = some ⟨sentGroup w0, sentGroup w1, sentGroup w2⟩ := rfl

/-- `parse_frame` reads the sent words back (R77). -/
theorem parseFrame_sentResponse (w0 w1 w2 : Word) : parseFrame (sentResponse w0 w1 w2) = .words w0 w1 w2 := by
  simp [parseFrame, partition_sentResponse, sentGroup_valid, sentGroup_word]

/-- Settles O43: a transaction shows `parse_frame` of the response, which reads the sent words back, and what the host
makes of the ports depends on that outcome alone. -/
theorem transactionMeasuresTheSensorsWords : Obligations.TransactionMeasuresTheSensorsWords := by
  refine ⟨fun α floatEval s w0 w1 w2 rest hd => ?_, fun α floatEval s response rest hd no_words => ?_⟩
  · obtain ⟨t, run, ports⟩ := runEdges_transaction (response := sentResponse w0 w1 w2) hd
    rw [parseFrame_sentResponse] at ports
    refine ⟨t, run, ?_⟩
    rw [readPorts_of_words ports]
    rfl
  · obtain ⟨t, run, ports⟩ := runEdges_transaction hd
    exact ⟨t, run, measure_of_no_words floatEval ports no_words⟩

/-! ### The conversions -/

theorem tempExact_eq (w : Word) : tempExact w = -45 + 35 * (w.toNat : Rat) / 13107 := by
  rw [tempExact]
  ring

theorem humidityExact_eq (w : Word) : humidityExact w = 20 * (w.toNat : Rat) / 13107 := by
  rw [humidityExact]
  ring

theorem humidityExact_nonneg (w : Word) : 0 ≤ humidityExact w := by
  rw [humidityExact]
  positivity

theorem humidityExact_le (w : Word) : humidityExact w ≤ 100 := by
  have largest : (w.toNat : Rat) ≤ 65535 := mod_cast Nat.le_of_lt_succ w.isLt
  rw [humidityExact]
  linarith

theorem tempExact_lt {v w : Word} (h : v < w) : tempExact v < tempExact w := by
  have larger : (v.toNat : Rat) < w.toNat := mod_cast BitVec.lt_def.mp h
  rw [tempExact, tempExact]
  linarith

/-- Settles O42: both fractions are reduced by 5, both conversions are linear with a positive factor, and the ends are
computed. -/
theorem conversionsHaveTheExactValues : Obligations.ConversionsHaveTheExactValues := by
  have least : (0 : Word).toNat = 0 := rfl
  have greatest : (65535 : Word).toNat = 65535 := rfl
  refine ⟨fun w => ⟨tempExact_eq w, humidityExact_eq w, humidityExact_nonneg w, humidityExact_le w⟩,
    fun v w => tempExact_lt, ?_, ?_, ?_, ?_⟩
  · norm_num [tempExact, least]
  · norm_num [tempExact, greatest]
  · norm_num [humidityExact, least]
  · norm_num [humidityExact, greatest]

/-! ### The command frames -/

/-- Settles O41: the address byte stands before the two halves of each command code. -/
theorem commandFramesAreThreeBytes : Obligations.CommandFramesAreThreeBytes := by
  refine ⟨by decide, by decide, by decide, fun c => ⟨rfl, ?_⟩⟩
  cases c with
  | startMeasurement => exact .inl rfl
  | readMeasurement => exact .inr rfl
  | stopMeasurement => exact .inl rfl

end Sys2Proof.Env
end

section
/-!
PROOFS. The statements on the conditions the block records (60_exceptions.md R103, R109, R110): what an operation with
each code makes of FAULT, and which steps leave a standing frame error alone.
-/

namespace Sys2Proof

/-- The operation on the pins has their code. -/
theorem Pins.opcode_instr (p : Pins) : p.instr.opcode = p.op := (opcode_decode p.word).trans (opOf_append p.op p.data)

end Sys2Proof

namespace Sys2Proof.Machine

/-! ### The port faults -/

/-- An operation raises IllegalOp and does nothing else, raises a SequenceFault and does nothing else, or is in the
host's contract and keeps FAULT; its code and ST say which (R103). -/
theorem exec_port_fault_cases {i : Instr} {s t : State} (h : exec i s = .next t) :
    (i.opcode = 7 ∧ t = s.setFault (withIll s.fault))
    ∨ ((i.opcode = 5 ∨ i.opcode = 6) ∧ s.st ≠ .recv ∧ t = s.setFault (withSeq s.fault))
    ∨ (i.opcode ≠ 7 ∧ (i.opcode = 5 ∨ i.opcode = 6 → s.st = .recv) ∧ t.fault = s.fault) := by
  cases i with
  | nop | crcinit | crcbyte d | crcchk e | fstart =>
    cases h
    exact .inr (.inr ⟨by simp [Instr.opcode], by simp [Instr.opcode], rfl⟩)
  | rsv7 =>
    cases h
    exact .inl ⟨rfl, rfl⟩
  | fbyte d =>
    rcases exec_fbyte_cases h with ⟨hr, rfl⟩ | ⟨hr, -, rfl⟩ | ⟨hr, p, -, rfl⟩
    · exact .inr (.inl ⟨.inl rfl, hr, rfl⟩)
    · exact .inr (.inr ⟨by simp [Instr.opcode], fun _ => hr, rfl⟩)
    · exact .inr (.inr ⟨by simp [Instr.opcode], fun _ => hr, by simp⟩)
  | fend =>
    rcases exec_fend_cases h with ⟨hr, rfl⟩ | ⟨hr, rfl⟩
    · exact .inr (.inl ⟨.inr rfl, hr, rfl⟩)
    · exact .inr (.inr ⟨by simp [Instr.opcode], fun _ => hr, by simp⟩)

/-- After an operation ILL is 1 when it was, or when the code is the reserved one (R22). -/
theorem exec_ill_iff {i : Instr} {s t : State} (h : exec i s = .next t) :
    t.ill = true ↔ s.ill = true ∨ i.opcode = 7 := by
  rcases exec_port_fault_cases h with ⟨h7, rfl⟩ | ⟨h56, -, rfl⟩ | ⟨h7, -, hf⟩
  · obtain ⟨ill_set, -⟩ := withIll_bits s.fault
    exact iff_of_true ill_set (.inr h7)
  · obtain ⟨-, ill_kept, -⟩ := withSeq_bits s.fault
    have h7 : i.opcode ≠ 7 := by rcases h56 with h5 | h6 <;> simp [*]
    rw [or_iff_left h7, State.ill, State.setFault_fault, ill_kept, State.ill]
  · rw [or_iff_left h7, State.ill, hf, State.ill]

/-- After an operation SEQ is 1 when it was, or when the code is FBYTE's or FEND's and no frame is open (R22). -/
theorem exec_seq_iff {i : Instr} {s t : State} (h : exec i s = .next t) :
    t.seq = true ↔ s.seq = true ∨ (i.opcode = 5 ∨ i.opcode = 6) ∧ s.st ≠ .recv := by
  rcases exec_port_fault_cases h with ⟨h7, rfl⟩ | ⟨h56, hst, rfl⟩ | ⟨-, open_frame, hf⟩
  · obtain ⟨-, seq_kept, -⟩ := withIll_bits s.fault
    have other_code : ¬((i.opcode = 5 ∨ i.opcode = 6) ∧ s.st ≠ .recv) := by simp [h7]
    rw [or_iff_left other_code, State.seq, State.setFault_fault, seq_kept, State.seq]
  · obtain ⟨seq_set, -⟩ := withSeq_bits s.fault
    exact iff_of_true seq_set (.inr ⟨h56, hst⟩)
  · have in_contract : ¬((i.opcode = 5 ∨ i.opcode = 6) ∧ s.st ≠ .recv) := fun ⟨h56, hst⟩ => hst (open_frame h56)
    rw [or_iff_left in_contract, State.seq, hf, State.seq]

/-- An operation that raises a port fault writes no register but FAULT (R103). -/
theorem exec_port_fault_only {i : Instr} {s t : State} (h : exec i s = .next t)
    (hi : i.opcode = 7 ∨ (i.opcode = 5 ∨ i.opcode = 6) ∧ s.st ≠ .recv) : t = s.setFault t.fault := by
  rcases exec_port_fault_cases h with ⟨-, rfl⟩ | ⟨-, -, rfl⟩ | ⟨h7, open_frame, -⟩
  · rfl
  · rfl
  · rcases hi with hi | ⟨h56, hst⟩
    · exact absurd hi h7
    · exact absurd (open_frame h56) hst

/-- Writing FAULT shows on `fault_o` alone (R23). -/
theorem State.outputs_setFault (s : State) (f : BitVec 2) : (s.setFault f).outputs = { s.outputs with faultO := f } :=
  rfl

/-- Settles O30: a reset step clears FAULT; any other step is the operation with the code on the pins. -/
theorem portFaultsAreRecordedAndSticky : Obligations.PortFaultsAreRecordedAndSticky := by
  intro s p rest hd
  obtain ⟨t, ht⟩ := step_answers_next s
  have hp : s.sample = p := State.sample_of_driven hd
  refine ⟨t, ht, fun hr => ?_, fun hr => ?_⟩
  · rw [step_of_reset ht (by rw [hp, hr])]
    rfl
  · have he : exec p.instr s.advance = .next t := (step_of_driven hd hr).symm.trans ht
    rw [← p.opcode_instr]
    refine ⟨exec_ill_iff (s := s.advance) he, exec_seq_iff (s := s.advance) he, fun hi => ?_⟩
    rw [exec_port_fault_only (s := s.advance) he hi]
    exact ⟨⟨rfl, rfl, rfl, rfl, rfl, rfl, rfl⟩, ⟨rfl, rfl⟩, s.advance.outputs_setFault t.fault⟩

/-! ### A standing frame error -/

/-- A frame error stands in DONE only (R28, item 3). -/
theorem State.Inv.done_of_error {s : State} (hi : s.Inv) (he : s.err ≠ .none) : s.st = .done := by
  by_contra hst
  obtain ⟨no_error, -⟩ := hi.no_error_of_not_done hst
  exact he no_error

/-- Settles O32: a reset step and FSTART write ERR and EGRP; the third writer is FEND in RECV, where no error stands. -/
theorem frameErrorStandsUntilCleared : Obligations.FrameErrorStandsUntilCleared := by
  intro s hinv herr
  obtain ⟨t, ht⟩ := step_answers_next s
  refine ⟨t, ht, fun hclear => ?_, fun hr hs => ?_⟩
  · cases hr : s.sample.rst with
    | true =>
      rw [step_of_reset ht hr]
      exact ⟨rfl, rfl⟩
    | false =>
      have hi : s.sample.instr = .fstart := hclear.resolve_left (by simp [hr])
      have he := step_of_operation ht hr
      rw [hi] at he
      cases he
      exact ⟨rfl, rfl⟩
  · have hst : s.st = .done := hinv.done_of_error herr
    have not_closing : ¬(s.sample.instr = .fend ∧ s.advance.st = .recv) := by simp [hst]
    obtain ⟨-, kept⟩ := exec_keeps_frame_status (step_of_operation ht hr) hs not_closing
    exact kept

end Sys2Proof.Machine
end

section
/-!
PROOFS. The statements on reset, the step function and the host's sequence rules (70_reset_and_hazards.md R120, R121,
R124): a run of reset steps, the step by the code on the pins, two runs that agree on one half of the registers, and
what the host's contract keeps clean.
-/

namespace Sys2Proof

open Sys2Proof.Machine

/-- The code and, in format D, the data on the pins give the operation. -/
theorem Pins.instr_eq {p : Pins} {i : Instr} (hop : p.op = i.opcode) (hdata : FormatD i.opcode → p.data = i.operand) :
    p.instr = i := by
  rw [Pins.instr, Pins.word, hop]
  exact decode_opcode_append hdata

/-- The host's contract by operation code: not the reserved code, and FBYTE and FEND in RECV only (R124). -/
theorem Instr.inContract_iff (i : Instr) (s : State) :
    i.inContract s = true ↔ i.opcode ≠ 7 ∧ (i.opcode = 5 ∨ i.opcode = 6 → s.st = .recv) := by
  cases i <;> simp [Instr.inContract, Instr.opcode]

end Sys2Proof

namespace Sys2Proof.Machine

/-! ### Two runs that agree on the frame registers -/

theorem State.SameFrame.symm {s t : State} (h : s.SameFrame t) : t.SameFrame s := by
  obtain ⟨hfcrc, hst, hcnt, hw, hok, herr, hegrp⟩ := h
  exact ⟨hfcrc.symm, hst.symm, hcnt.symm, hw.symm, hok.symm, herr.symm, hegrp.symm⟩

/-- Where a byte goes, and what it makes of FCRC, W and OK, is read off the frame registers. -/
theorem State.SameFrame.takeByte {s t : State} (h : s.SameFrame t) (p : Slot) (d : Byte) :
    (s.takeByte p d).SameFrame (t.takeByte p d) := by
  obtain ⟨hfcrc, hst, hcnt, hw, hok, herr, hegrp⟩ := h
  obtain ⟨g, role⟩ := p
  cases role <;> simp [State.SameFrame, State.takeByte, *]

/-- The verdict is read off CNT and OK. -/
theorem State.SameFrame.judgeFrame {s t : State} (h : s.SameFrame t) : s.judgeFrame.SameFrame t.judgeFrame := by
  obtain ⟨hfcrc, hst, hcnt, hw, hok, herr, hegrp⟩ := h
  rcases s.judgeFrame_cases with ⟨hc, hs⟩ | ⟨g, hc, hg, hlow, hs⟩ | ⟨hc, hall, hs⟩
  · rw [hs, State.judgeFrame_of_cnt_ne (hcnt ▸ hc)]
    exact ⟨hfcrc, hst, hcnt, hw, hok, rfl, rfl⟩
  · rw [hs, State.judgeFrame_of_failing (hcnt ▸ hc) (hok ▸ lowestFailing_eq_some.mpr ⟨hg, hlow⟩)]
    exact ⟨hfcrc, hst, hcnt, hw, hok, rfl, rfl⟩
  · rw [hs, State.judgeFrame_of_verified (hcnt ▸ hc) (hok ▸ lowestFailing_eq_none.mpr hall)]
    exact ⟨hfcrc, hst, hcnt, hw, hok, rfl, rfl⟩

/-- FBYTE takes the same branch of R80 in both runs: ST and CNT choose it. -/
theorem exec_fbyte_sameFrame {s₁ s₂ t₁ t₂ : State} {d : Byte} (h₁ : exec (.fbyte d) s₁ = .next t₁)
    (h₂ : exec (.fbyte d) s₂ = .next t₂) (h : s₁.SameFrame s₂) : t₁.SameFrame t₂ := by
  obtain ⟨hfcrc, hst, hcnt, hw, hok, herr, hegrp⟩ := id h
  rcases exec_fbyte_cases h₁ with ⟨hr, rfl⟩ | ⟨hr, hc, rfl⟩ | ⟨hr, p, hp, rfl⟩
  · rw [exec_fbyte_of_not_recv d (hst ▸ hr)] at h₂
    cases h₂
    exact h
  · rw [exec_fbyte_of_full d (hst ▸ hr) (hcnt ▸ hc)] at h₂
    cases h₂
    exact ⟨hfcrc, hst, rfl, hw, hok, herr, hegrp⟩
  · rw [exec_fbyte_of_slot d (hst ▸ hr) (hcnt ▸ hp)] at h₂
    cases h₂
    obtain ⟨hfcrc', hst', -, hw', hok', herr', hegrp'⟩ := h.takeByte p d
    exact ⟨hfcrc', hst', congrArg nextCnt hcnt, hw', hok', herr', hegrp'⟩

/-- FEND takes the same branch of R81 in both runs: ST chooses it. -/
theorem exec_fend_sameFrame {s₁ s₂ t₁ t₂ : State} (h₁ : exec .fend s₁ = .next t₁)
    (h₂ : exec .fend s₂ = .next t₂) (h : s₁.SameFrame s₂) : t₁.SameFrame t₂ := by
  obtain ⟨hfcrc, hst, hcnt, hw, hok, herr, hegrp⟩ := id h
  rcases exec_fend_cases h₁ with ⟨hr, rfl⟩ | ⟨hr, rfl⟩
  · rw [exec_fend_of_not_recv (hst ▸ hr)] at h₂
    cases h₂
    exact h
  · rw [exec_fend_of_recv (hst ▸ hr)] at h₂
    cases h₂
    have closed : (s₁.setSt .done).SameFrame (s₂.setSt .done) := ⟨hfcrc, rfl, hcnt, hw, hok, herr, hegrp⟩
    exact closed.judgeFrame

/-- What an operation leaves in the frame registers is a function of the frame registers (R124). -/
theorem exec_sameFrame {i : Instr} {s₁ s₂ t₁ t₂ : State} (h₁ : exec i s₁ = .next t₁)
    (h₂ : exec i s₂ = .next t₂) (h : s₁.SameFrame s₂) : t₁.SameFrame t₂ := by
  cases i with
  | nop | crcinit | crcbyte d | crcchk e | rsv7 =>
    exact (exec_sameFrame_of_not_frameOp h₁ rfl).symm.trans (h.trans (exec_sameFrame_of_not_frameOp h₂ rfl))
  | fstart =>
    cases h₁
    cases h₂
    exact ⟨rfl, rfl, rfl, rfl, rfl, rfl, rfl⟩
  | fbyte d => exact exec_fbyte_sameFrame h₁ h₂ h
  | fend => exact exec_fend_sameFrame h₁ h₂ h

/-! ### Two runs that agree on the generic registers -/

/-- What an operation leaves in CRC and MATCH is a function of CRC and MATCH (R124). -/
theorem exec_sameGeneric {i : Instr} {s₁ s₂ t₁ t₂ : State} (h₁ : exec i s₁ = .next t₁)
    (h₂ : exec i s₂ = .next t₂) (h : s₁.SameGeneric s₂) : t₁.SameGeneric t₂ := by
  obtain ⟨hcrc, hmatch⟩ := h
  cases i with
  | nop | fstart | fbyte d | fend | rsv7 =>
    obtain ⟨hcrc₁, hmatch₁⟩ := exec_sameGeneric_of_not_writesMatch h₁ rfl
    obtain ⟨hcrc₂, hmatch₂⟩ := exec_sameGeneric_of_not_writesMatch h₂ rfl
    exact ⟨hcrc₁.symm.trans (hcrc.trans hcrc₂), hmatch₁.symm.trans (hmatch.trans hmatch₂)⟩
  | crcinit =>
    cases h₁
    cases h₂
    exact ⟨rfl, rfl⟩
  | crcbyte d =>
    cases h₁
    cases h₂
    exact ⟨congrArg (crcByte · d) hcrc, rfl⟩
  | crcchk e =>
    cases h₁
    cases h₂
    exact ⟨hcrc, congrArg (· == e) hcrc⟩

/-- Settles O28: each half of the registers after an operation is a function of that half before it, and the ports of a
half are functions of its registers. -/
theorem frameAndGenericStateAreIsolated : Obligations.FrameAndGenericStateAreIsolated := by
  refine fun i s₁ s₂ t₁ t₂ h₁ h₂ => ⟨fun h => ?_, fun h => ?_⟩
  · have after := exec_sameFrame h₁ h₂ h
    exact ⟨after, after.ports⟩
  · have after := exec_sameGeneric h₁ h₂ h
    exact ⟨after, after⟩

/-! ### Reset steps -/

theorem step_regsAtReset {s t : State} (h : step s = .next t) (hr : s.sample.rst = true) : t.RegsAtReset := by
  rw [step_of_reset h hr]
  exact s.advance.resetRegs_regsAtReset

/-- Several reset steps leave what one leaves (R120). -/
theorem runEdges_regsAtReset {p : Pins} {more rest : List Pins} {s t : State} (hd : s.driven = p :: more ++ rest)
    (hp : p.rst = true) (hmore : ∀ q ∈ more, q.rst = true) (h : runEdges (more.length + 1) s = .next t) :
    t.RegsAtReset := by
  obtain ⟨u, hu⟩ := step_answers_next s
  rw [runEdges_succ_of_step _ hu] at h
  have first : u.RegsAtReset := step_regsAtReset hu (by rw [State.sample_of_driven hd, hp])
  have hdu : u.driven = more ++ rest := by
    rw [step_driven hu, hd]
    rfl
  exact runEdges_keeps (P := State.RegsAtReset) (fun hr hst _ => step_regsAtReset hst hr) hdu hmore h first

/-- R27's outputs are read off the registers. -/
theorem State.RegsAtReset.outputs {s : State} (h : s.RegsAtReset) :
    s.outputs = ⟨0xFF, false, false, false, 0, 0, 0x0000, 0x0000, 0x0000, 0⟩ := by
  obtain ⟨hcrc, hmatch, hst, ⟨-, -, -, -, herr, hegrp⟩, hfault⟩ := h
  simp [State.outputs, State.valid, gate, Config.gatedWord, groupCode, FrameErr.code, *]

/-! ### The step at a driven sample -/

theorem State.advance_of_driven {s : State} {p : Pins} {rest : List Pins} (hd : s.driven = p :: rest) :
    s.advance = { s with driven := rest, edges := s.edges + 1 } := by
  rw [State.advance, hd, List.tail_cons]

/-- Settles O1: every reset step gives the reset registers, so the last of a run does; the other steps decode the
pins. -/
theorem resetStepGivesTheResetValues : Obligations.ResetStepGivesTheResetValues := by
  refine ⟨fun s p more rest hd hp hmore => ?_, fun s p rest hd hr => ?_⟩
  · obtain ⟨t, ht⟩ := runEdges_answers_next (more.length + 1) s
    have reset := runEdges_regsAtReset hd hp hmore ht
    obtain ⟨hcrc, hmatch, hst, ⟨hfcrc, hcnt, hw, hok, herr, hegrp⟩, hfault⟩ := id reset
    refine ⟨t, ht, runEdges_driven (pins := p :: more) hd ht, hcrc, hmatch, hfcrc, congrArg FrameState.code hst,
      congrArg Fin.val hcnt, fun g => ?_, congrArg FrameErr.code herr, congrArg Fin.val hegrp, hfault, reset.outputs⟩
    rw [hw, hok]
    exact ⟨PerGroup.get_replicate _ g, PerGroup.get_replicate _ g⟩
  · rw [← State.advance_of_driven hd]
    exact step_of_driven hd hr

/-- Settles O3: a step always answers; a reset step gives the reset registers, and any other is the operation with the
code on the pins. -/
theorem stepRunsTheSampledOperation : Obligations.StepRunsTheSampledOperation := by
  refine ⟨step_answers_next, fun s s' p rest hd hs' => ⟨fun hr => ?_, fun hr => ?_⟩⟩
  · obtain ⟨t, ht⟩ := step_answers_next s
    refine ⟨t, ht, step_regsAtReset ht (by rw [State.sample_of_driven hd, hr]), ?_⟩
    rw [step_driven ht, hd, List.tail_cons]
  · have formatD {i : Instr} (hop : p.op = i.opcode) (hdata : FormatD i.opcode → p.data = i.operand) :
        step s = exec i s' := by
      rw [step_of_driven hd hr, Pins.instr_eq hop hdata, hs', State.advance_of_driven hd]
    have formatN {i : Instr} (hN : ¬ FormatD i.opcode) (hop : p.op = i.opcode) : step s = exec i s' :=
      formatD hop fun hD => absurd hD hN
    exact ⟨formatN (i := .nop) (by decide), formatN (i := .crcinit) (by decide),
      fun hop => formatD (i := .crcbyte p.data) hop fun _ => rfl,
      fun hop => formatD (i := .crcchk p.data) hop fun _ => rfl, formatN (i := .fstart) (by decide),
      fun hop => formatD (i := .fbyte p.data) hop fun _ => rfl, formatN (i := .fend) (by decide),
      formatN (i := .rsv7) (by decide)⟩

/-! ### The host's contract -/

theorem withIll_ne_zero : ∀ f : BitVec 2, withIll f ≠ 0 := by decide

theorem withSeq_ne_zero : ∀ f : BitVec 2, withSeq f ≠ 0 := by decide

/-- Out of contract a FAULT bit is set, and in contract FAULT is kept. -/
theorem exec_clean_iff {i : Instr} {s t : State} (h : exec i s = .next t) (hs : s.Clean) :
    t.Clean ↔ i.inContract s = true := by
  rw [i.inContract_iff]
  rcases exec_port_fault_cases h with ⟨h7, rfl⟩ | ⟨h56, hst, rfl⟩ | ⟨h7, open_frame, hf⟩
  · exact iff_of_false (withIll_ne_zero s.fault) fun ⟨hne, _⟩ => hne h7
  · exact iff_of_false (withSeq_ne_zero s.fault) fun ⟨_, hopen⟩ => hst (hopen h56)
  · exact iff_of_true (hf.trans hs) ⟨h7, open_frame⟩

/-- Settles O31: every operation answers, and what it makes of FAULT is decided by the contract. -/
theorem faultFreeExactlyInContract : Obligations.FaultFreeExactlyInContract := by
  intro i s hs
  obtain ⟨t, ht, -⟩ := exec_answers_next i s
  exact ⟨t, ht, exec_clean_iff ht hs⟩

end Sys2Proof.Machine
end

section
/-!
PROOFS. The statements on what is on the pins at the coming edge: a command word placed there (30_encoding.md R45), and
a sample that the model holds no decision of (10_state.md R10).
-/

namespace Sys2Proof

/-! ### Placed words -/

/-- A number decodes exactly when it is a command word, and then as that word (R45). -/
theorem decodeTableWord_eq_some_iff {nbits w : Nat} {i : Instr} :
    decodeTableWord nbits w = some i ↔ wordWf w = true ∧ decode (BitVec.ofNat 11 w) = i := by
  unfold decodeTableWord decodeNumber
  cases wordWf w <;> simp

namespace Machine

/-- The pins of a placed word carry that word, so its operation. -/
theorem State.sample_withFetchWord_instr (s : State) (nbits w : Nat) :
    (s.withFetchWord nbits w).sample.instr = decode (BitVec.ofNat 11 w) :=
  congrArg decode (opOf_append_dataOf (BitVec.ofNat 11 w))

/-- Settles O4: the word is driven without reset, and the pins decode as the word does. -/
theorem placedWordIsTheOperationStepped : Obligations.PlacedWordIsTheOperationStepped := by
  intro s nbits w i hw
  obtain ⟨-, hi⟩ := decodeTableWord_eq_some_iff.mp hw
  calc step (s.withFetchWord nbits w)
      = exec (s.withFetchWord nbits w).sample.instr (s.withFetchWord nbits w).advance := step_of_driven rfl rfl
    _ = exec i s.advance := by rw [State.sample_withFetchWord_instr, hi]; rfl

/-! ### Undecided pins -/

/-- The step sees the pins through their sample only, and the rest of the state once that sample is used up. -/
theorem step_congr {s t : State} (hsample : s.sample = t.sample) (hadvance : s.advance = t.advance) :
    step s = step t := by
  rw [step, step, hsample, hadvance]

/-- The free sample of the edge numbered `n` (R10; log entry 2). -/
def freePins (n : Nat) : Pins := ⟨Config.hostRst n, Config.hostOp n, Config.hostData n⟩

theorem State.sample_of_undriven {s : State} (hd : s.driven = []) : s.sample = freePins s.edges := by
  rw [State.sample, hd, freePins]

/-- Settles O5: the free sample of the edge is what is sampled, and driving it leaves nothing after the edge either. -/
theorem undecidedPinsAreAFreeSample : Obligations.UndecidedPinsAreAFreeSample := by
  refine ⟨freePins, fun s hd => step_congr (State.sample_of_undriven hd) ?_⟩
  rw [State.advance, hd]
  rfl

end Machine

end Sys2Proof
end
